-- ==== Sys2Proof/Word.lean ====
section
/-! DEFINITION. The word types and the spec's small named values: modes, phases, latch, levels, fields, steps, errors. -/

namespace Sys2Proof

/-- One byte of the ConfigRegion as an observer sees it (R34). -/
abbrev Byte := BitVec 8

/-- A 32-bit word: the PackedWord, a region word, a parameter port (R8: `WORD_W` = `PARAM_W` = 32). -/
abbrev Word := BitVec 32

/-- The three values of the write-control mode register and of its shadow `wstate` (R15, R36). -/
inductive Mode where
  | readOnly
  | writeEnabled
  | eraseEnabled
deriving DecidableEq, Repr, Inhabited

/-- The values of the micro-program counter `phase` (R14, R55). Code 15 is reserved and has no constructor (log 16). -/
inductive Phase where
  | idle
  | encode
  | s1Issue
  | s1Wait
  | s2Issue
  | s2Wait
  | s3Issue
  | s3Wait
  | s4Issue
  | s4Wait
  | s5Issue
  | s5Wait
  | ack
  | restart
  | fault
deriving DecidableEq, Repr

/-- The two states of the CommitTrigger's latch (R11, R87). -/
inductive Latch where
  | armed
  | latched
deriving DecidableEq, Repr

/-- The level of the input pin as sampled; the pin is active-low (R18, R59). -/
inductive Level where
  | pressed
  | released
deriving DecidableEq, Repr, Inhabited

/-- The four fields of the calibration record, in the argument order of `encode` (R51, R58). -/
inductive Field where
  | offset
  | mode
  | status
  | setpoint
deriving DecidableEq, Repr

/-- The five steps of the erase/program sequence (R71). -/
inductive SeqStep where
  | s1
  | s2
  | s3
  | s4
  | s5
deriving DecidableEq, Repr

/-- The contents of the `err` register (R17, R58). -/
inductive Err where
  | noError
  | fieldOverflow (f : Field)
  | hardwareTimeout (k : SeqStep)
deriving DecidableEq, Repr

end Sys2Proof
end

