-- ==== Sys2Proof/Syntax.lean ====
section
/-! DEFINITION. The operations of the block, the data format and the bus operations: one constructor per row of spec/opcode_table.json (R64). -/

namespace Sys2Proof

/-- One constructor per row of the operation table. The fifteen operations of the block have no operand of their own
(their operands are registers, ports and parameters); a bus operation carries what its ports carry (R37 to R40). -/
inductive Instr where
  | poll
  | encode
  | modeEraseEn
  | wait1
  | eraseRegion
  | wait2
  | modeWriteEn
  | wait3
  | storeWord
  | wait4
  | modeReadOnly
  | wait5
  | ack
  | restart
  | halt
  /-- The data format of R51: a word. It is no operation (R64). -/
  | packedWord (w : Word)
  | nvReady
  | nvMode (m : Mode)
  | nvErase
  /-- The word store `MemWrite(addr, 4, v)`; the width is always 4 bytes (R39). -/
  | memWrite (addr : Word) (v : Word)
deriving DecidableEq, Repr

end Sys2Proof
end

