-- ==== Sys2Proof/Config.lean ====
section
/-! DEFINITION. What an implementation fixes (the parameters of R8), what the world outside the block may choose (R146), and the free values. -/

namespace Sys2Proof

/-- The parameters of R8 that a model takes as arguments. Carried in State as plain data that no step changes (log 5);
`CNT_W` = 32 is the width of the `pollcnt` field. -/
structure Params where
  /-- `CONFIG_ADDR`, byte address of the target word (OPEN, D4). -/
  configAddr : Word
  /-- `REGION_BASE` (OPEN, D4). -/
  regionBase : Word
  /-- `REGION_WORDS`, how many 32-bit words the erase clears (OPEN, D4). -/
  regionWords : Nat
  /-- `ERASED_WORD`, the value of an erased word (D5). -/
  erasedWord : Word
  /-- `POLL_LIMIT`: `none` is the reference design (OPEN, D12). -/
  pollLimit : Option Nat
  /-- `NV_COMPLETES`, the fairness assumption (OPEN, D26). No step reads it: it says which runs a claim of termination
  may be about, `Safety.NvCompletes` (R49; log 22). -/
  nvCompletes : Bool
deriving DecidableEq, Repr

/-- The parameter values of the one state `State.reset`: region and target as in the programs of 95_test_vectors.md section 3,
the region's base as in R122's orientation note, the decided erased word, and the reference design's unbounded wait and
fairness assumption.
DESIGN CHOICE, unsafe for a claim about `State.reset`'s addresses (log 5); PRESUMED erased word, unsafe (log 6). -/
def Params.initial : Params where
  configAddr := 0x10001008#32
  regionBase := 0x10001000#32
  regionWords := 4
  erasedWord := 0xFFFFFFFF#32
  pollLimit := none
  nvCompletes := true

/-- What stands on the memory-controller port in one step (R57): `idle` is `nv_cmd` = 0, no command,
in which the status flag may be sampled. -/
inductive BusOp where
  | idle
  | mode (m : Mode)
  | erase
  | write (addr v : Word)
deriving DecidableEq, Repr, Inhabited

/-- The levels on the block's input ports (R22): the pin and the four parameter ports. -/
structure Pins where
  btnLevel : Level
  pOffset : Word
  pMode : Word
  pStatus : Word
  pSetpoint : Word
deriving DecidableEq, Repr, Inhabited

/-- What a reset in mid-sequence makes of the controller (R132, D21): the mode register is a draw, and the operation
in flight is either still running or has ended (completed, abandoned or half done). -/
structure ControllerFate where
  mode : Mode
  stillRunning : Bool
deriving DecidableEq, Repr, Inhabited

/-- Whose step is next (R5, R41, R126, R136; log 1). -/
inductive Turn where
  /-- The block takes the step its `phase` selects. -/
  | block
  /-- The memory controller completes its operation in flight (`env: Complete`). -/
  | controller
  /-- The platform resets the block (`env: Reset`). -/
  | platform (fate : ControllerFate)
  /-- Another master makes one transfer on the controller's port (log 13). -/
  | otherMaster (op : BusOp)
deriving DecidableEq, Repr, Inhabited

/-- One choice of the world outside: who moves next, and what the input ports carry then. -/
structure Stimulus where
  turn : Turn
  pins : Pins
deriving DecidableEq, Repr, Inhabited

/-- FREE VALUE (log 2): the environment's `n`-th choice, where no script says it (R9 `draw`; R23, U16, U17). -/
opaque Config.freeStimulus : Nat → Stimulus

/-- FREE VALUE (log 28): the mode whose code the block's `nv_mode_val` carries in a step without a mode write (R57 says only
when it is valid; code 3 is never driven, R56). -/
opaque Config.freeModeVal : Nat → Mode

/-- FREE VALUE (log 28): what the block's `nv_wdata` carries in a step without a word store (R57 says only when it is
valid). -/
opaque Config.freeWdata : Nat → Word

/-- FREE VALUE (log 29): what `diag_data` carries in a step without an event (R62 gives it for `diag_kind` 1 to 3 only). -/
opaque Config.freeDiagData : Nat → Word

/-- FREE VALUE (log 3): what `W` holds after a reset (R24, R126: `W <- unspecified`; U11). -/
opaque Config.freeW : Nat → Word

end Sys2Proof
end

