-- ==== Sys2Proof/WellFormed.lean ====
section
/-! DEFINITION. Which terms of `Instr` stand for something the hardware can be shown: only PACKEDWORD has a reserved form (R53, R60). -/

namespace Sys2Proof

/-- R54: a 32-bit word is a well-formed PackedWord iff `w & 0xFF000300 = 0`.
Every other constructor is well formed by its type: mode code 3 and phase code 15 have no term (R60). -/
def Instr.wellFormed : Instr → Bool
  | .packedWord w => w &&& 0xFF000300#32 == 0#32
  | .poll | .encode | .modeEraseEn | .wait1 | .eraseRegion | .wait2 | .modeWriteEn | .wait3 | .storeWord
  | .wait4 | .modeReadOnly | .wait5 | .ack | .restart | .halt | .nvReady | .nvMode _ | .nvErase
  | .memWrite _ _ => true

end Sys2Proof
end

