-- ==== Sys2Proof/Decode.lean ====
section
/-! DEFINITION. The codes of R51 to R62, the decoder from what the hardware presents to `Instr` (total, rejecting by name), and the encoder. -/

namespace Sys2Proof

/-! ### Codes on registers and ports -/

/-- R56: mode codes. -/
def Mode.code : Mode → BitVec 2
  | .readOnly => 0
  | .writeEnabled => 1
  | .eraseEnabled => 2

/-- R56 read backwards; code 3 is reserved. -/
def Mode.ofCode? (c : BitVec 2) : Option Mode :=
  match c.toNat with
  | 0 => some .readOnly
  | 1 => some .writeEnabled
  | 2 => some .eraseEnabled
  | _ => none

/-- R55: phase codes. -/
def Phase.code : Phase → BitVec 4
  | .idle => 0
  | .encode => 1
  | .s1Issue => 2
  | .s1Wait => 3
  | .s2Issue => 4
  | .s2Wait => 5
  | .s3Issue => 6
  | .s3Wait => 7
  | .s4Issue => 8
  | .s4Wait => 9
  | .s5Issue => 10
  | .s5Wait => 11
  | .ack => 12
  | .restart => 13
  | .fault => 14

/-- R55 read backwards; code 15 is reserved. -/
def Phase.ofCode? (c : BitVec 4) : Option Phase :=
  match c.toNat with
  | 0 => some .idle
  | 1 => some .encode
  | 2 => some .s1Issue
  | 3 => some .s1Wait
  | 4 => some .s2Issue
  | 5 => some .s2Wait
  | 6 => some .s3Issue
  | 7 => some .s3Wait
  | 8 => some .s4Issue
  | 9 => some .s4Wait
  | 10 => some .s5Issue
  | 11 => some .s5Wait
  | 12 => some .ack
  | 13 => some .restart
  | 14 => some .fault
  | _ => none

/-- R58: the field ids in the argument order of `encode`. -/
def Field.code : Field → BitVec 3
  | .offset => 0
  | .mode => 1
  | .status => 2
  | .setpoint => 3

/-- R58: the step number. -/
def SeqStep.code : SeqStep → BitVec 3
  | .s1 => 1
  | .s2 => 2
  | .s3 => 3
  | .s4 => 4
  | .s5 => 5

/-- R58: the 5-bit error code, class in bits [4:3], info in bits [2:0]. -/
def Err.code : Err → BitVec 5
  | .noError => 0#2 ++ 0#3
  | .fieldOverflow f => 1#2 ++ f.code
  | .hardwareTimeout k => 2#2 ++ k.code

/-- R59: `Armed` = 0, `Latched` = 1. -/
def Latch.code : Latch → BitVec 1
  | .armed => 0
  | .latched => 1

/-- R59: 0 = pressed ("active-low: logic 0"), 1 = released. -/
def Level.code : Level → BitVec 1
  | .pressed => 0
  | .released => 1

/-! ### From phases and port commands to operations -/

/-- R14, R64: the operation executed in each phase. -/
def Phase.operation : Phase → Instr
  | .idle => .poll
  | .encode => .encode
  | .s1Issue => .modeEraseEn
  | .s1Wait => .wait1
  | .s2Issue => .eraseRegion
  | .s2Wait => .wait2
  | .s3Issue => .modeWriteEn
  | .s3Wait => .wait3
  | .s4Issue => .storeWord
  | .s4Wait => .wait4
  | .s5Issue => .modeReadOnly
  | .s5Wait => .wait5
  | .ack => .ack
  | .restart => .restart
  | .fault => .halt

/-- The bus operation that stands on the controller's port (R37 to R40, R57). -/
def BusOp.operation : BusOp → Instr
  | .idle => .nvReady
  | .mode m => .nvMode m
  | .erase => .nvErase
  | .write addr v => .memWrite addr v

/-- The phase at which an operation of the block is selected (R64); a bus operation and a data word have none. -/
def Instr.phase? : Instr → Option Phase
  | .poll => some .idle
  | .encode => some .encode
  | .modeEraseEn => some .s1Issue
  | .wait1 => some .s1Wait
  | .eraseRegion => some .s2Issue
  | .wait2 => some .s2Wait
  | .modeWriteEn => some .s3Issue
  | .wait3 => some .s3Wait
  | .storeWord => some .s4Issue
  | .wait4 => some .s4Wait
  | .modeReadOnly => some .s5Issue
  | .wait5 => some .s5Wait
  | .ack => some .ack
  | .restart => some .restart
  | .halt => some .fault
  | .packedWord _ | .nvReady | .nvMode _ | .nvErase | .memWrite _ _ => none

/-- The port command of a bus operation; nothing else has one. -/
def Instr.busOp? : Instr → Option BusOp
  | .nvReady => some .idle
  | .nvMode m => some (.mode m)
  | .nvErase => some .erase
  | .memWrite addr v => some (.write addr v)
  | .poll | .encode | .modeEraseEn | .wait1 | .eraseRegion | .wait2 | .modeWriteEn | .wait3 | .storeWord
  | .wait4 | .modeReadOnly | .wait5 | .ack | .restart | .halt | .packedWord _ => none

/-! ### The decoder -/

/-- What the hardware presents to be read: the `phase` register, the four wires of the controller's port
(`nv_cmd`, `nv_mode_val`, `nv_addr`, `nv_wdata`, R22), or a 32-bit data word. -/
inductive Presented where
  | phase (code : BitVec 4)
  | bus (cmd modeVal : BitVec 2) (addr wdata : Word)
  | word (w : Word)
deriving DecidableEq, Repr

/-- Why nothing is decoded (R60). -/
inductive DecodeError where
  /-- Phase code 15 (R55). -/
  | reservedPhase
  /-- Mode code 3 on `nv_mode_val` (R56). -/
  | reservedMode
  /-- A word with a bit of [9:8] or [31:24] set (R53). -/
  | reservedBits
deriving DecidableEq, Repr

/-- R53, R54: mask `0xFF000300`, match 0. -/
def reservedBitsClear (w : Word) : Bool :=
  w &&& 0xFF000300#32 == 0#32

/-- The `phase` register selects the operation (R14, R55). -/
def decodePhase (c : BitVec 4) : Except DecodeError Instr :=
  match Phase.ofCode? c with
  | some p => .ok p.operation
  | none => .error .reservedPhase

/-- `nv_cmd` selects the bus operation; `nv_mode_val` is valid for a mode write, `nv_addr` and `nv_wdata` for a store (R57). -/
def decodeBus (cmd modeVal : BitVec 2) (addr wdata : Word) : Except DecodeError Instr :=
  match cmd.toNat with
  | 0 => .ok .nvReady
  | 1 =>
    match Mode.ofCode? modeVal with
    | some m => .ok (.nvMode m)
    | none => .error .reservedMode
  | 2 => .ok .nvErase
  | _ => .ok (.memWrite addr wdata)

/-- A 32-bit word is a PackedWord iff its reserved bits are zero (R54). -/
def decodeWord (w : Word) : Except DecodeError Instr :=
  if reservedBitsClear w then .ok (.packedWord w) else .error .reservedBits

/-- Total on everything the hardware can present; a reserved code is rejected by name. -/
def decode : Presented → Except DecodeError Instr
  | .phase c => decodePhase c
  | .bus cmd modeVal addr wdata => decodeBus cmd modeVal addr wdata
  | .word w => decodeWord w

/-! ### The encoder -/

/-- What is presented for an instruction, from the tables of R51, R55, R56, R57. `modeVal`, `addr` and `wdata` are what the
wires carry that its command does not use: R57 says only with which command each is valid. -/
def encodeOn (modeVal : BitVec 2) (addr wdata : Word) : Instr → Presented
  | .poll => .phase 0
  | .encode => .phase 1
  | .modeEraseEn => .phase 2
  | .wait1 => .phase 3
  | .eraseRegion => .phase 4
  | .wait2 => .phase 5
  | .modeWriteEn => .phase 6
  | .wait3 => .phase 7
  | .storeWord => .phase 8
  | .wait4 => .phase 9
  | .modeReadOnly => .phase 10
  | .wait5 => .phase 11
  | .ack => .phase 12
  | .restart => .phase 13
  | .halt => .phase 14
  | .packedWord w => .word w
  | .nvReady => .bus 0 modeVal addr wdata
  | .nvMode m => .bus 1 m.code addr wdata
  | .nvErase => .bus 2 modeVal addr wdata
  | .memWrite a v => .bus 3 modeVal a v

/-- The one presentation that stands for an instruction as its word: 0 on the wires its command does not use (log 28). It is
not what the block's port carries there (`State.busWires`). -/
def encode (i : Instr) : Presented :=
  encodeOn 0 0 0 i

/-- The host's question: `nbits` is a row's width in spec/opcode_table.json in whole bytes. PHASE rows have 4 bits and NVCMD
rows 2, so both round to 8 and cannot be told apart there: 8 (or 4) is read as the `phase` register, which is what a step
fetches, 2 as `nv_cmd` with the other wires zero, 32 as a PACKEDWORD (log 14). -/
def decodeTableWord (nbits w : Nat) : Option Instr :=
  match nbits with
  | 2 => if w < 4 then (decode (.bus (BitVec.ofNat 2 w) 0 0 0)).toOption else none
  | 4 => if w < 16 then (decode (.phase (BitVec.ofNat 4 w))).toOption else none
  | 8 => if w < 16 then (decode (.phase (BitVec.ofNat 4 w))).toOption else none
  | 32 => if w < 4294967296 then (decode (.word (BitVec.ofNat 32 w))).toOption else none
  | _ => none

end Sys2Proof
end

