-- ==== Sys2Proof/Machine/State.lean ====
section
/-! DEFINITION. The machine's state: the block (R10), the memory controller (R36), the ConfigRegion (R31), the ports (R22), and the model's own fields for whose turn it is. -/

namespace Sys2Proof.Machine

/-- The operation in flight behind the busy flag (R36). -/
inductive Pending where
  | none
  | mode (m : Mode)
  | erase
  | program (addr v : Word)
deriving DecidableEq, Repr

/-- What stands on the diagnostic channel in one step (R62). -/
inductive Diag where
  | none
  | word (w : Word)
  | ok
  | err (e : Err)
deriving DecidableEq, Repr

/-- The bytes of the ConfigRegion whose value is known, by byte address, in rising order (R31, R34). An unlisted byte has
NO value: nothing is claimed of it (U6, U10, U18; log 8). -/
abbrev Memory := List Host.Cell

/-- The canonical form: addresses strictly rising. (No entry can equal what an unlisted byte reads as: that is no value.) -/
abbrev Memory.wf (m : Memory) : Prop := m.Pairwise (fun x y => x.1 < y.1)

/-- Why the machine stops with a fault. -/
inductive Fault where
  /-- R43, R118: a bus operation that the controller's contract does not cover. Raised by `busNvMode`, `busNvErase` and
  `busMemWrite`, so by the issue operations and the bus operations. Safe: the spec does not say what the hardware does. -/
  | nvContractViolation
deriving DecidableEq, Repr

/-- Why an instruction has no meaning. -/
inductive Refusal where
  /-- An instruction that has no meaning yet. Raised by no arm of `exec`. Safe. -/
  | notModelled (mnemonic : String)
  /-- R64: PACKEDWORD is a data format and no operation. Raised by `execPackedWord`. Safe. -/
  | dataFormat
  /-- R35, D8: a configuration that breaks R8 is refused. Raised by `step`. Safe. -/
  | illegalParams
  /-- R47, R136, U19: another master on the controller's port inside the sequence. Raised by `step`. Safe for the model
  as stated; the spec excludes the case. -/
  | otherMasterInSequence
deriving DecidableEq, Repr

/-- All the state the spec gives the machine; field by field in INVENTORY.md. -/
structure State where
  /-- R11. -/
  latch : Latch
  /-- R14, the micro-program counter. -/
  phase : Phase
  /-- R15, the shadow of the controller's mode register. -/
  wstate : Mode
  /-- R12, the PackedWord register. -/
  W : Word
  /-- R16, not-ready answers seen in the current wait; `CNT_W` = 32. -/
  pollcnt : BitVec 32
  /-- R17. -/
  err : Err
  /-- R27, the output register of the restart line. -/
  restartReq : Bool
  /-- R36, the controller's write-control mode register. -/
  nvMode : Mode
  /-- R36, the busy flag. -/
  nvBusy : Bool
  /-- R36, the operation in flight. -/
  nvPending : Pending
  /-- R31, the ConfigRegion. -/
  mem : Memory
  /-- R22, R57: the command on the block's port to the controller in the step just taken (the wires: `State.busWires`). -/
  bus : BusOp
  /-- R22, R62: `diag_kind`, `diag_data` in the step just taken. -/
  diag : Diag
  /-- R13, R18: what the input ports carry for the coming step. -/
  pins : Pins
  /-- The model's own: whose step comes next (log 1). -/
  turn : Turn
  /-- The model's own: the environment's choices already fixed for the steps after the next (R63; log 2). -/
  script : List Stimulus
  /-- The model's own: how many choices the environment has made (log 2). -/
  draws : Nat
  /-- R8, carried as data that no step changes (log 5). -/
  params : Params
deriving DecidableEq, Repr

/-- The machine right after reset (R24, R126), for any parameters. The controller is as the launch premise R128 has it
(DESIGN CHOICE, unsafe: log 7); `W` and the input ports are free values (logs 3, 4); the first step is the block's (R127). -/
def State.resetWith (p : Params) : State where
  latch := .armed
  phase := .idle
  wstate := .readOnly
  W := Config.freeW 0
  pollcnt := 0
  err := .noError
  restartReq := false
  nvMode := .readOnly
  nvBusy := false
  nvPending := .none
  mem := []
  bus := .idle
  diag := .none
  pins := (Config.freeStimulus 0).pins
  turn := .block
  script := []
  draws := 1
  params := p

/-- The machine right after reset with the parameter values of `Params.initial` (log 5). -/
def State.reset : State := State.resetWith Params.initial

end Sys2Proof.Machine
end

