-- ==== Sys2Proof/Machine/Operands.lean ====
section
/-! DEFINITION. Operand forms: the legality of parameters, region addresses, bytes of a word, the input ports, the wires a state presents. -/

namespace Sys2Proof

/-- R8, R35: the constraints on the OPEN parameters. Addresses are compared as unbounded numbers (log 19). -/
def Params.legal (p : Params) : Bool :=
  p.regionBase.toNat % 4 == 0 && p.configAddr.toNat % 4 == 0 && decide (1 ≤ p.regionWords) &&
  decide (p.regionBase.toNat ≤ p.configAddr.toNat) &&
  decide (p.configAddr.toNat < p.regionBase.toNat + 4 * p.regionWords) &&
  match p.pollLimit with
  | none => true
  | some l => decide (1 ≤ l) && decide (l < 4294967296)

/-- The first byte address after the region (R31). -/
def Params.regionEnd (p : Params) : Nat :=
  p.regionBase.toNat + 4 * p.regionWords

/-- The byte address of region word `i` (R31). -/
def Params.wordAddr (p : Params) (i : Nat) : Nat :=
  p.regionBase.toNat + 4 * i

/-- `TARGET` = (`CONFIG_ADDR` - `REGION_BASE`) / 4 (R32). -/
def Params.target (p : Params) : Nat :=
  (p.configAddr.toNat - p.regionBase.toNat) / 4

/-- R39: a word store reaches `a` only if it is aligned and inside the region. -/
def Params.storable (p : Params) (a : Word) : Bool :=
  a.toNat % 4 == 0 && decide (p.regionBase.toNat ≤ a.toNat) && decide (a.toNat < p.regionEnd)

/-- R41: the byte address of `region[(a - REGION_BASE)/4]`. -/
def Params.programAddr (p : Params) (a : Word) : Nat :=
  p.wordAddr ((a.toNat - p.regionBase.toNat) / 4)

/-- R34: byte `j` of a word is `w[8j+7 : 8j]`, at the `j`-th address (little-endian: log 26). -/
def byteOf (w : Word) (j : Nat) : Byte :=
  w.extractLsb' (8 * j) 8

/-- R34: a word from its four bytes, the byte at the lowest address first. -/
def wordOf (b0 b1 b2 b3 : Byte) : Word :=
  b3 ++ b2 ++ b1 ++ b0

/-- R14, R71: the phase that waits for step `k`. -/
def SeqStep.waitPhase : SeqStep → Phase
  | .s1 => .s1Wait
  | .s2 => .s2Wait
  | .s3 => .s3Wait
  | .s4 => .s4Wait
  | .s5 => .s5Wait

/-- R74, R76, R78, R80, R82: `next_k`. -/
def SeqStep.nextPhase : SeqStep → Phase
  | .s1 => .s2Issue
  | .s2 => .s3Issue
  | .s3 => .s4Issue
  | .s4 => .s5Issue
  | .s5 => .ack

/-- R136, R146: the phases during which no other master may use the controller, P_S1_ISSUE to P_S5_WAIT. -/
def Phase.inSequence : Phase → Bool
  | .s1Issue | .s1Wait | .s2Issue | .s2Wait | .s3Issue | .s3Wait | .s4Issue | .s4Wait | .s5Issue | .s5Wait => true
  | .idle | .encode | .ack | .restart | .fault => false

/-- R132: the phases in which a reset cuts a sequence short, P_S1_WAIT to P_S5_WAIT or P_FAULT. -/
def Phase.midSequence : Phase → Bool
  | .s1Wait | .s2Issue | .s2Wait | .s3Issue | .s3Wait | .s4Issue | .s4Wait | .s5Issue | .s5Wait | .fault => true
  | .idle | .encode | .s1Issue | .ack | .restart => false

namespace Machine

/-- R86: `Sample()`, the level of the pin in this step. -/
def State.sample (s : State) : Level :=
  s.pins.btnLevel

/-- R57: `nv_cmd` in the step just taken. -/
def State.nvCmd (s : State) : BitVec 2 :=
  match s.bus with
  | .idle => 0
  | .mode _ => 1
  | .erase => 2
  | .write _ _ => 3

/-- R56, R57: `nv_mode_val` in the step just taken; a free value where it is not valid (log 28). -/
def State.nvModeVal (s : State) : BitVec 2 :=
  match s.bus with
  | .mode m => m.code
  | .idle | .erase | .write _ _ => (Config.freeModeVal s.draws).code

/-- R22, R32: `nv_addr` in the step just taken: the constant `CONFIG_ADDR`, the only address the block drives. A `MemWrite`
executed as an instruction of its own shows its own operand (R39). -/
def State.nvAddr (s : State) : Word :=
  match s.bus with
  | .write a _ => a
  | .idle | .mode _ | .erase => s.params.configAddr

/-- R57: `nv_wdata` in the step just taken; a free value where it is not valid (log 28). -/
def State.nvWdata (s : State) : Word :=
  match s.bus with
  | .write _ v => v
  | .idle | .mode _ | .erase => Config.freeWdata s.draws

/-- R22: the four wires of the block's port to the controller in the step just taken. -/
def State.busWires (s : State) : Presented :=
  .bus s.nvCmd s.nvModeVal s.nvAddr s.nvWdata

/-- R62: `diag_kind` in the step just taken (what the sink does with it: log 27). -/
def State.diagKind (s : State) : BitVec 2 :=
  match s.diag with
  | .none => 0
  | .word _ => 1
  | .ok => 2
  | .err _ => 3

/-- R62: `diag_data` in the step just taken. The spec gives it no value in a step without an event: there it is a free value
(DESIGN CHOICE, log 29). -/
def State.diagData (s : State) : Word :=
  match s.diag with
  | .none => Config.freeDiagData s.draws
  | .word w => w
  | .ok => 0
  | .err e => e.code.setWidth 32

/-- R22: the `err_code` port. -/
def State.errCode (s : State) : BitVec 5 :=
  s.err.code

end Machine

end Sys2Proof
end

