-- ==== Sys2Proof/Machine/Flags.lean ====
section
/-! DEFINITION. Flag computations: the ready flag, the request and latch of a poll, the field overflow flags, the named states. -/

namespace Sys2Proof

/-- R66: a field overflows when a bit at or above its width is set in the whole 32-bit input. -/
def overflows (width : Nat) (v : Word) : Bool :=
  decide (2 ^ width ≤ v.toNat)

/-- R51: the declared widths of the four fields. -/
def Field.width : Field → Nat
  | .offset => 8
  | .mode => 2
  | .status => 2
  | .setpoint => 10

/-- R88: `request = (latch = Armed) and (lvl = 0)`. -/
def pollRequest : Latch → Level → Bool
  | .armed, .pressed => true
  | .armed, .released => false
  | .latched, .pressed => false
  | .latched, .released => false

/-- R88: the latch after a poll. -/
def pollLatch : Latch → Level → Latch
  | .armed, .pressed => .latched
  | .armed, .released => .armed
  | .latched, .pressed => .latched
  | .latched, .released => .armed

/-- The five state names of the source's state machine, and the intervals between them (R72). -/
inductive NamedState where
  | readOnly
  | leavingReadOnly
  | eraseEnabled
  | leavingEraseEnabled
  | readyAfterErase
  | leavingReadyAfterErase
  | writeEnabled
  | leavingWriteEnabled
  | readyAfterWrite
  | leavingReadyAfterWrite
  | abandoned
deriving DecidableEq, Repr

/-- R72: the named state is a function of `phase`. -/
def Phase.named : Phase → NamedState
  | .idle | .encode | .s1Issue => .readOnly
  | .s1Wait => .leavingReadOnly
  | .s2Issue => .eraseEnabled
  | .s2Wait => .leavingEraseEnabled
  | .s3Issue => .readyAfterErase
  | .s3Wait => .leavingReadyAfterErase
  | .s4Issue => .writeEnabled
  | .s4Wait => .leavingWriteEnabled
  | .s5Issue => .readyAfterWrite
  | .s5Wait => .leavingReadyAfterWrite
  | .ack | .restart => .readOnly
  | .fault => .abandoned

namespace Machine

/-- R40: `NvReady()` is true when the controller is not busy; no side effect. -/
def State.ready (s : State) : Bool :=
  !s.nvBusy

/-- R59: the `nv_ready` wire, 1 = ready. -/
def State.nvReadyWire (s : State) : BitVec 1 :=
  BitVec.ofBool s.ready

/-- R83: the not-ready answer that reaches `POLL_LIMIT`. -/
def State.pollExpires (s : State) : Bool :=
  match s.params.pollLimit with
  | none => false
  | some l => decide (l ≤ s.pollcnt.toNat + 1)

/-- R16, R83: the counter after a not-ready answer; it does not move when `POLL_LIMIT` is none (width: log 23). -/
def State.pollcntAfterBusy (s : State) : BitVec 32 :=
  match s.params.pollLimit with
  | none => s.pollcnt
  | some _ => s.pollcnt + 1

/-- R102, R103, R144: some step of the block is enabled. -/
def State.blockEnabled (s : State) : Bool :=
  match s.phase with
  | .fault => false
  | .restart => !s.restartReq
  | .idle | .encode | .s1Issue | .s1Wait | .s2Issue | .s2Wait | .s3Issue | .s3Wait | .s4Issue | .s4Wait
  | .s5Issue | .s5Wait | .ack => true

end Machine

end Sys2Proof
end

