-- ==== Sys2Proof/Machine/Ops.lean ====
section
/-! DEFINITION. Named operations: memory, observation of the region, the controller's port, and taking an exception. -/

namespace Sys2Proof.Machine

/-! ### Memory by bytes and by words -/

/-- The byte at an address; an unlisted byte has no value (log 8). -/
def Memory.read : Memory → Nat → Option Byte
  | [], _ => none
  | (k, b) :: m, a => if k = a then some b else Memory.read m a

/-- Writes one byte, keeping the addresses in rising order. -/
def Memory.write : Memory → Nat → Byte → Memory
  | [], a, v => [(a, v)]
  | (k, b) :: m, a, v =>
    if a < k then (a, v) :: (k, b) :: m
    else if a = k then (a, v) :: m
    else (k, b) :: Memory.write m a v

/-- The bytes from `lo` up to and not including `hi` lose their value (R42, R132, U6: any value). -/
def Memory.forget (m : Memory) (lo hi : Nat) : Memory :=
  m.filter (fun c => decide (c.1 < lo) || decide (hi ≤ c.1))

/-- R34: a word store, little-endian. -/
def Memory.writeWord (m : Memory) (a : Nat) (w : Word) : Memory :=
  Memory.write (Memory.write (Memory.write (Memory.write m a (byteOf w 0)) (a + 1) (byteOf w 1)) (a + 2) (byteOf w 2))
    (a + 3) (byteOf w 3)

/-- R9, R34: the word at an address, if all four bytes have a value. -/
def Memory.readWord (m : Memory) (a : Nat) : Option Word :=
  match Memory.read m a, Memory.read m (a + 1), Memory.read m (a + 2), Memory.read m (a + 3) with
  | some b0, some b1, some b2, some b3 => some (wordOf b0 b1 b2 b3)
  | _, _, _, _ => none

/-- R41: `for i in 0 .. n-1: region[i] <- v`. -/
def Memory.eraseWords (m : Memory) (base : Nat) (v : Word) : Nat → Memory
  | 0 => m
  | n + 1 => Memory.writeWord (Memory.eraseWords m base v n) (base + 4 * n) v

/-! ### What an observer sees of the region -/

/-- R42: the first byte an operation in flight may disturb, and the first after it. -/
def Pending.affected (p : Params) : Pending → Nat × Nat
  | .none => (0, 0)
  | .mode _ => (0, 0)
  | .erase => (p.wordAddr 0, p.regionEnd)
  | .program a _ => (p.programAddr a, p.programAddr a + 4)

/-- R42: the controller is busy with an operation that disturbs this byte. -/
def State.disturbed (s : State) (a : Nat) : Bool :=
  s.nvBusy && decide ((s.nvPending.affected s.params).1 ≤ a) && decide (a < (s.nvPending.affected s.params).2)

/-- One byte of the region as an outside observer may rely on it: no value while an operation in flight disturbs it
(R42; log 9). -/
def State.observeByte (s : State) (a : Nat) : Option Byte :=
  if s.disturbed a then none else Memory.read s.mem a

/-- R9, R31: region word `i` as an outside observer may rely on it. -/
def State.observeWord (s : State) (i : Nat) : Option Word :=
  match s.observeByte (s.params.wordAddr i), s.observeByte (s.params.wordAddr i + 1),
    s.observeByte (s.params.wordAddr i + 2), s.observeByte (s.params.wordAddr i + 3) with
  | some b0, some b1, some b2, some b3 => some (wordOf b0 b1 b2 b3)
  | _, _, _, _ => none

/-- R9: `MemRead(a, 4)`, for observers only: a word-aligned address in the region (log 25). -/
def State.memRead (s : State) (a : Word) : Option Word :=
  if s.params.storable a then s.observeWord ((a.toNat - s.params.regionBase.toNat) / 4) else none

/-! ### Outputs -/

/-- No command and no diagnostic event (R57, R62: each is presented for one step; log 12). -/
def State.quiet (s : State) : State :=
  { s with bus := .idle, diag := .none }

/-! ### The controller's port (R37 to R39) -/

/-- The controller takes an operation: it is in flight, and the controller is busy (R36). -/
def State.accept (s : State) (op : BusOp) (p : Pending) : State :=
  { s with bus := op, nvPending := p, nvBusy := true }

/-- R37: `NvMode(m)`. -/
def busNvMode (m : Mode) (s : State) : Host.Outcome State Fault Refusal :=
  if s.nvBusy then .fault .nvContractViolation
  else .next (s.accept (.mode m) (.mode m))

/-- R38: `NvErase()`. -/
def busNvErase (s : State) : Host.Outcome State Fault Refusal :=
  if s.nvBusy || s.nvMode != .eraseEnabled then .fault .nvContractViolation
  else .next (s.accept .erase .erase)

/-- R39: `MemWrite(addr, 4, v)`. -/
def busMemWrite (a v : Word) (s : State) : Host.Outcome State Fault Refusal :=
  if s.nvBusy || s.nvMode != .writeEnabled || !s.params.storable a then .fault .nvContractViolation
  else .next (s.accept (.write a v) (.program a v))

/-- Carry a next state on; a fault or a refusal stands. -/
def onNext (f : State → State) : Host.Outcome State Fault Refusal → Host.Outcome State Fault Refusal
  | .next s => .next (f s)
  | .fault r => .fault r
  | .refused r => .refused r

/-! ### Taking an exception -/

/-- R106: `err` and the diagnostic channel carry the exception, and the block goes on at `landing`. Nothing is saved and
nothing else changes (R108, R112); there is no return operation (R109, R113). -/
def State.raise (s : State) (e : Err) (landing : Phase) : State :=
  { s with err := e, diag := .err e, phase := landing }

/-- R98, R108: `FieldOverflow(f)` puts the block back into its polling state. -/
def State.raiseFieldOverflow (s : State) (f : Field) : State :=
  s.raise (.fieldOverflow f) .idle

/-- R112: `HardwareTimeout(k)` stops the block. -/
def State.raiseHardwareTimeout (s : State) (k : SeqStep) : State :=
  s.raise (.hardwareTimeout k) .fault

end Sys2Proof.Machine
end

