-- ==== Sys2Proof/Machine/Bus.lean ====
section
/-! DEFINITION. The four bus operations as instructions (R37 to R40), and the data format, which is none (R64). -/

namespace Sys2Proof.Machine

/-- R64: PACKEDWORD is the data format that ENCODE produces and STORE_WORD consumes; it is no operation. -/
def execPackedWord (_ : Word) (_ : State) : Host.Outcome State Fault Refusal :=
  .refused .dataFormat

/-- R40, R57: `nv_cmd` = 0; the status flag is sampled and nothing changes. The answer is `State.ready` (log 24). -/
def execNvReady (s : State) : Host.Outcome State Fault Refusal :=
  .next s.quiet

/-- R37. -/
def execNvMode (m : Mode) (s : State) : Host.Outcome State Fault Refusal :=
  busNvMode m s.quiet

/-- R38. -/
def execNvErase (s : State) : Host.Outcome State Fault Refusal :=
  busNvErase s.quiet

/-- R39. -/
def execMemWrite (a v : Word) (s : State) : Host.Outcome State Fault Refusal :=
  busMemWrite a v s.quiet

end Sys2Proof.Machine
end

