-- ==== Sys2Proof/Machine/Encoder.lean ====
section
/-! DEFINITION. The calibration encoder: the pure functions ENCODE (R65) and DECODE (R67). -/

namespace Sys2Proof.Machine

/-- The calibration record: four fields of their declared widths (R51). -/
structure Record where
  offset : BitVec 8
  mode : BitVec 2
  status : BitVec 2
  setpoint : BitVec 10
deriving DecidableEq, Repr

/-- R52: field assembly by shifts and or. -/
def packFields (r : Record) : Word :=
  r.offset.setWidth 32 ||| (r.mode.setWidth 32 <<< 10) ||| (r.status.setWidth 32 <<< 12) |||
    (r.setpoint.setWidth 32 <<< 14)

/-- R65: ENCODE refuses a value that exceeds its field, naming the first in argument order (D3); it never truncates. -/
def encodeRecord (o m st sp : Word) : Except Field Word :=
  if overflows Field.offset.width o then .error .offset
  else if overflows Field.mode.width m then .error .mode
  else if overflows Field.status.width st then .error .status
  else if overflows Field.setpoint.width sp then .error .setpoint
  else .ok (packFields ⟨o.extractLsb' 0 8, m.extractLsb' 0 2, st.extractLsb' 0 2, sp.extractLsb' 0 10⟩)

/-- R67: DECODE, the reference inverse; a word with a reserved bit set is refused. It is no operation of the block. -/
def decodeRecord (w : Word) : Option Record :=
  if reservedBitsClear w then
    some ⟨w.extractLsb' 0 8, w.extractLsb' 10 2, w.extractLsb' 12 2, w.extractLsb' 14 10⟩
  else none

end Sys2Proof.Machine
end

