-- ==== Sys2Proof/Machine/Controller.lean ====
section
/-! DEFINITION. The commit controller: ENCODE (R96), ACK (R100), RESTART (R102), HALT (R103). -/

namespace Sys2Proof.Machine

/-- R96, success: `W <- w; err <- NoError; Emit(DIAG_WORD(w)); phase <- P_S1_ISSUE`. -/
def State.commitWord (s : State) (w : Word) : State :=
  { s with W := w, err := .noError, diag := .word w, phase := .s1Issue }

/-- R96: the four parameter ports are read once, together, in this step (R139; log 21). -/
def State.encodeStep (s : State) : State :=
  match encodeRecord s.pins.pOffset s.pins.pMode s.pins.pStatus s.pins.pSetpoint with
  | .ok w => s.quiet.commitWord w
  | .error f => s.quiet.raiseFieldOverflow f

/-- R96. -/
def execEncode (s : State) : Host.Outcome State Fault Refusal :=
  .next s.encodeStep

/-- R100: `Emit(DIAG_OK); phase <- P_RESTART`. -/
def execAck (s : State) : Host.Outcome State Fault Refusal :=
  .next { s.quiet with diag := .ok, phase := .restart }

/-- R102: enabled while `restart_req = 0`; with `restart_req = 1` no step is enabled and the block's turn passes (log 11). -/
def execRestart (s : State) : Host.Outcome State Fault Refusal :=
  .next (if s.restartReq then s.quiet else { s.quiet with restartReq := true })

/-- R103: no step of the block is enabled: it drives `nv_cmd` = 0 and holds its registers; its turn passes (log 11). -/
def execHalt (s : State) : Host.Outcome State Fault Refusal :=
  .next s.quiet

end Sys2Proof.Machine
end

