-- ==== Sys2Proof/Machine/Sequencer.lean ====
section
/-! DEFINITION. The non-volatile writer: five issues (R73, R75, R77, R79, R81) and five waits (R83 with R74, R76, R78, R80, R82). -/

namespace Sys2Proof.Machine

/-- After the bus transfer of step `k`: `pollcnt <- 0; phase <- P_Sk_WAIT`. -/
def State.enterWait (s : State) (k : SeqStep) : State :=
  { s with pollcnt := 0, phase := k.waitPhase }

/-- `confirm_k`: the shadow `wstate` follows a mode change once the ready flag has confirmed it (R15, R74, R78, R82). -/
def State.confirm (s : State) (k : SeqStep) : State :=
  match k with
  | .s1 => { s with wstate := .eraseEnabled }
  | .s2 => s
  | .s3 => { s with wstate := .writeEnabled }
  | .s4 => s
  | .s5 => { s with wstate := .readOnly }

/-- R83, ready answer. -/
def State.waitReady (s : State) (k : SeqStep) : State :=
  { s.quiet.confirm k with pollcnt := 0, phase := k.nextPhase }

/-- R83, the not-ready answer that reaches the limit. -/
def State.waitTimeout (s : State) (k : SeqStep) : State :=
  { s.quiet with pollcnt := s.pollcntAfterBusy }.raiseHardwareTimeout k

/-- R83, a not-ready answer below the limit, or without one: the same phase again. -/
def State.waitSpin (s : State) (k : SeqStep) : State :=
  { s.quiet with pollcnt := s.pollcntAfterBusy, phase := k.waitPhase }

/-- R83: one execution of `WAITk` is one read of the flag; the ready answer is examined before the limit (R115). -/
def waitStep (k : SeqStep) (s : State) : State :=
  if s.ready then s.waitReady k
  else if s.pollExpires then s.waitTimeout k
  else s.waitSpin k

/-- R73: `NvMode(EraseEnabled); pollcnt <- 0; phase <- P_S1_WAIT`. -/
def execModeEraseEn (s : State) : Host.Outcome State Fault Refusal :=
  onNext (fun t => t.enterWait .s1) (busNvMode .eraseEnabled s.quiet)

/-- R74. -/
def execWait1 (s : State) : Host.Outcome State Fault Refusal :=
  .next (waitStep .s1 s)

/-- R75: `NvErase(); pollcnt <- 0; phase <- P_S2_WAIT`. -/
def execEraseRegion (s : State) : Host.Outcome State Fault Refusal :=
  onNext (fun t => t.enterWait .s2) (busNvErase s.quiet)

/-- R76. -/
def execWait2 (s : State) : Host.Outcome State Fault Refusal :=
  .next (waitStep .s2 s)

/-- R77: `NvMode(WriteEnabled); pollcnt <- 0; phase <- P_S3_WAIT`. -/
def execModeWriteEn (s : State) : Host.Outcome State Fault Refusal :=
  onNext (fun t => t.enterWait .s3) (busNvMode .writeEnabled s.quiet)

/-- R78. -/
def execWait3 (s : State) : Host.Outcome State Fault Refusal :=
  .next (waitStep .s3 s)

/-- R79: `MemWrite(CONFIG_ADDR, 4, W); pollcnt <- 0; phase <- P_S4_WAIT`. -/
def execStoreWord (s : State) : Host.Outcome State Fault Refusal :=
  onNext (fun t => t.enterWait .s4) (busMemWrite s.params.configAddr s.W s.quiet)

/-- R80. -/
def execWait4 (s : State) : Host.Outcome State Fault Refusal :=
  .next (waitStep .s4 s)

/-- R81: `NvMode(ReadOnly); pollcnt <- 0; phase <- P_S5_WAIT`. -/
def execModeReadOnly (s : State) : Host.Outcome State Fault Refusal :=
  onNext (fun t => t.enterWait .s5) (busNvMode .readOnly s.quiet)

/-- R82. -/
def execWait5 (s : State) : Host.Outcome State Fault Refusal :=
  .next (waitStep .s5 s)

end Sys2Proof.Machine
end

