-- ==== Sys2Proof/Machine/Trigger.lean ====
section
/-! DEFINITION. The commit trigger: POLL (R88). -/

namespace Sys2Proof.Machine

/-- R88: POLL samples the pin once; a request moves the block to P_ENCODE. -/
def execPoll (s : State) : Host.Outcome State Fault Refusal :=
  .next { s.quiet with
    latch := pollLatch s.latch s.sample
    phase := if pollRequest s.latch s.sample then .encode else .idle }

end Sys2Proof.Machine
end

