-- ==== Sys2Proof/Machine/Dispatch.lean ====
section
/-! DEFINITION. One arm per constructor of Instr, each one direct call of its meaning. -/

namespace Sys2Proof.Machine

def exec (i : Instr) (s : State) : Host.Outcome State Fault Refusal :=
  match i with
  | .poll => Sys2Proof.Machine.execPoll s
  | .encode => Sys2Proof.Machine.execEncode s
  | .modeEraseEn => Sys2Proof.Machine.execModeEraseEn s
  | .wait1 => Sys2Proof.Machine.execWait1 s
  | .eraseRegion => Sys2Proof.Machine.execEraseRegion s
  | .wait2 => Sys2Proof.Machine.execWait2 s
  | .modeWriteEn => Sys2Proof.Machine.execModeWriteEn s
  | .wait3 => Sys2Proof.Machine.execWait3 s
  | .storeWord => Sys2Proof.Machine.execStoreWord s
  | .wait4 => Sys2Proof.Machine.execWait4 s
  | .modeReadOnly => Sys2Proof.Machine.execModeReadOnly s
  | .wait5 => Sys2Proof.Machine.execWait5 s
  | .ack => Sys2Proof.Machine.execAck s
  | .restart => Sys2Proof.Machine.execRestart s
  | .halt => Sys2Proof.Machine.execHalt s
  | .packedWord w => Sys2Proof.Machine.execPackedWord w s
  | .nvReady => Sys2Proof.Machine.execNvReady s
  | .nvMode m => Sys2Proof.Machine.execNvMode m s
  | .nvErase => Sys2Proof.Machine.execNvErase s
  | .memWrite addr v => Sys2Proof.Machine.execMemWrite addr v s

end Sys2Proof.Machine
end

