-- ==== Sys2Proof/Machine/Env.lean ====
section
/-! DEFINITION. The steps of the world outside the block: Complete (R41), Reset (R126), the next choice of the environment (R146). -/

namespace Sys2Proof.Machine

/-- R41, U6: `region[(a - REGION_BASE)/4] <- v` where the word was erased; any value where it was not (log 9). -/
def programWord (p : Params) (a v : Word) (m : Memory) : Memory :=
  if Memory.readWord m (p.programAddr a) = some p.erasedWord then Memory.writeWord m (p.programAddr a) v
  else Memory.forget m (p.programAddr a) (p.programAddr a + 4)

/-- R41: the effect of the operation in flight. -/
def State.land (s : State) : State :=
  match s.nvPending with
  | .none => s
  | .mode m => { s with nvMode := m }
  | .erase => { s with mem := Memory.eraseWords s.mem (s.params.wordAddr 0) s.params.erasedWord s.params.regionWords }
  | .program a v => { s with mem := programWord s.params a v s.mem }

/-- R41: `Complete`, enabled iff `nv_busy = 1`; otherwise the controller's turn passes (log 17). -/
def complete (s : State) : State :=
  if s.nvBusy then { s.land.quiet with nvPending := .none, nvBusy := false } else s.quiet

/-- R132: the reset cuts an operation or a sequence short. -/
def State.cutShort (s : State) : Bool :=
  s.nvBusy || s.phase.midSequence

/-- R126: the block's registers in their reset state, outputs idle; `W` is a free value. -/
def State.resetBlock (s : State) : State :=
  { s with
    latch := .armed, phase := .idle, wstate := .readOnly, W := Config.freeW s.draws, pollcnt := 0, err := .noError,
    restartReq := false, bus := .idle, diag := .none }

/-- R132, D21: after a reset in mid-sequence the mode register is a draw, and the operation in flight still runs or has
ended in an unknown way, so that the words it disturbs may hold any value (log 10). -/
def State.abandon (s : State) (fate : ControllerFate) : State :=
  if fate.stillRunning then { s with nvMode := fate.mode }
  else
    { s with
      nvMode := fate.mode, nvBusy := false, nvPending := .none
      mem := if s.nvBusy then
        Memory.forget s.mem (s.nvPending.affected s.params).1 (s.nvPending.affected s.params).2 else s.mem }

/-- R126, R127, R132: `env: Reset`. The ConfigRegion is kept; the controller is not reset by it. -/
def platformReset (fate : ControllerFate) (s : State) : State :=
  if s.cutShort then (s.abandon fate).resetBlock else s.resetBlock

/-- R146: the environment chooses who moves next and what the input ports carry then: the script's next entry, or a free
value where there is none (logs 1, 2). -/
def advance (s : State) : State :=
  match s.script with
  | [] => { s with
      turn := (Config.freeStimulus s.draws).turn, pins := (Config.freeStimulus s.draws).pins, draws := s.draws + 1 }
  | c :: rest => { s with turn := c.turn, pins := c.pins, script := rest, draws := s.draws + 1 }

end Sys2Proof.Machine
end

