-- ==== Sys2Proof/Machine/Step.lean ====
section
/-! DEFINITION. One step of whichever agent has the turn, and the placing of an instruction for the next step. -/

namespace Sys2Proof.Machine

/-- One step (R4, R5): the agent that `turn` names takes its step, then the environment chooses what comes next.
The block runs the operation that `phase` selects (R14). A configuration that breaks R8 is refused (R35;
log 18); so is another master inside the sequence (U19; log 13). Another master drives the controller by wires of its own:
the block's outputs are idle in such a step (R57). An operation does not look at `phase` itself (log 20). -/
def step (s : State) : Host.Outcome State Fault Refusal :=
  if s.params.legal then
    match s.turn with
    | .block => onNext advance (exec s.phase.operation s)
    | .controller => .next (advance (complete s))
    | .platform fate => .next (advance (platformReset fate s))
    | .otherMaster op =>
      if s.phase.inSequence then .refused .otherMasterInSequence else onNext (fun t => advance t.quiet) (exec op.operation s)
  else .refused .illegalParams

/-- The instruction stands where the next step takes it: an operation of the block in `phase`, with the block's turn; a bus
operation on the controller's port, with another master's turn outside the sequence; a data word has no such place (log 14). -/
def State.place (s : State) (i : Instr) : State :=
  match i.phase?, i.busOp? with
  | some p, _ => { s with phase := p, turn := .block }
  | none, some op => { s with phase := if s.phase.inSequence then .idle else s.phase, turn := .otherMaster op }
  | none, none => s

/-- The host's: the instruction whose table bits are `w` is what the next step runs (log 14). -/
def State.withFetchWord (s : State) (nbits w : Nat) : State :=
  match decodeTableWord nbits w with
  | some i => s.place i
  | none => s

end Sys2Proof.Machine
end

