-- ==== Sys2Proof/Safety.lean ====
section
/-! DEFINITION. The terms claims are made in: premises, invariants, frames, runs, and what a run may end in. -/

namespace Sys2Proof.Safety

open Sys2Proof.Machine

/-! ### Frames -/

/-- The memory controller and the ConfigRegion are as before (R36, R31). -/
def SameController (s t : State) : Prop :=
  t.nvMode = s.nvMode ∧ t.nvBusy = s.nvBusy ∧ t.nvPending = s.nvPending ∧ t.mem = s.mem ∧
    ∀ a, t.observeByte a = s.observeByte a

/-- The world outside and the parameters are as before: no instruction touches them. -/
def SameWorld (s t : State) : Prop :=
  t.pins = s.pins ∧ t.turn = s.turn ∧ t.script = s.script ∧ t.draws = s.draws ∧ t.params = s.params

/-- Every register of the block is as before (R10). -/
def SameBlock (s t : State) : Prop :=
  t.latch = s.latch ∧ t.phase = s.phase ∧ t.wstate = s.wstate ∧ t.W = s.W ∧ t.pollcnt = s.pollcnt ∧ t.err = s.err ∧
    t.restartReq = s.restartReq

/-- No command on the controller's port in this step: `nv_cmd` = 0 (R57). -/
def NoTransfer (t : State) : Prop :=
  t.bus = .idle ∧ t.nvCmd = 0

/-- No diagnostic event in this step: `diag_kind` = 0 (R62). -/
def NoEvent (t : State) : Prop :=
  t.diag = .none ∧ t.diagKind = 0

/-- What an issue of step `k` does when the controller accepts it (R73, R75, R77, R79, R81), and what it leaves alone:
the store itself changes only when the controller completes. -/
def Issued (s t : State) (k : SeqStep) (op : BusOp) (p : Pending) : Prop :=
  t.phase = k.waitPhase ∧ t.pollcnt = 0 ∧ t.nvPending = p ∧ t.nvBusy = true ∧ t.bus = op ∧ NoEvent t ∧
    t.latch = s.latch ∧ t.wstate = s.wstate ∧ t.W = s.W ∧ t.err = s.err ∧ t.restartReq = s.restartReq ∧
    t.nvMode = s.nvMode ∧ t.mem = s.mem ∧ SameWorld s t

/-- What a bus operation does when the controller accepts it (R37 to R39); the block's registers are not touched. -/
def Accepted (s t : State) (op : BusOp) (p : Pending) : Prop :=
  t.nvPending = p ∧ t.nvBusy = true ∧ t.bus = op ∧ NoEvent t ∧ SameBlock s t ∧ t.nvMode = s.nvMode ∧ t.mem = s.mem ∧
    SameWorld s t

/-! ### Premises -/

/-- R128: the launch premise. "No other master" is a premise on turns, see `Permitted`. -/
def LaunchPremise (s : State) : Prop :=
  s.nvBusy = false ∧ s.nvPending = .none ∧ s.nvMode = .readOnly ∧ s.params.legal = true

/-- The four parameter ports are in range and pack to `w` (R65). -/
def PortsEncodeTo (p : Pins) (w : Word) : Prop :=
  encodeRecord p.pOffset p.pMode p.pStatus p.pSetpoint = .ok w

/-- R25, R132, R136: the turns the invariants allow: the block's and the controller's, a reset that does not cut a
sequence short, and another master's that only reads the flag. -/
def Permitted (s : State) : Prop :=
  match s.turn with
  | .block => True
  | .controller => True
  | .platform _ => s.phase.midSequence = false
  | .otherMaster op => op = .idle

/-! ### Invariants of the model -/

/-- What holds of the controller and the region whatever the world does: the memory is in its canonical form and inside the
region, `nv_pending = None` exactly when `nv_busy = 0` (R36), and a program in flight is one the controller accepts (R39). -/
structure StateOk (s : State) : Prop where
  wf : Memory.wf s.mem
  inside : ∀ c ∈ s.mem, s.params.regionBase.toNat ≤ c.1 ∧ c.1 < s.params.regionEnd
  busy : s.nvBusy = true ↔ s.nvPending ≠ .none
  program : ∀ a v, s.nvPending = .program a v → s.params.storable a = true

/-- Nothing in flight, the mode register at `m`. -/
def AtRest (s : State) (m : Mode) : Prop :=
  s.nvBusy = false ∧ s.nvPending = .none ∧ s.nvMode = m

/-- `p` in flight, the mode register still at `m`. -/
def InFlight (s : State) (p : Pending) (m : Mode) : Prop :=
  s.nvBusy = true ∧ s.nvPending = p ∧ s.nvMode = m

/-- Region word `i` is stored as `w`. -/
def Holds (s : State) (i : Nat) (w : Word) : Prop :=
  Memory.readWord s.mem (s.params.wordAddr i) = some w

/-- Every region word is erased. -/
def AllErased (s : State) : Prop :=
  ∀ i < s.params.regionWords, Holds s i s.params.erasedWord

/-- Every region word but the target is erased. -/
def OthersErased (s : State) : Prop :=
  ∀ i < s.params.regionWords, i ≠ s.params.target → Holds s i s.params.erasedWord

/-- The controller, `wstate` and the region in each phase of a commit: R25 items 1 to 6, with what a wait may find added
so that every step keeps it. -/
def SequenceInv (s : State) : Prop :=
  match s.phase with
  | .idle => s.wstate = .readOnly ∧ AtRest s .readOnly
  | .encode => s.wstate = .readOnly ∧ AtRest s .readOnly
  | .s1Issue => s.wstate = .readOnly ∧ AtRest s .readOnly
  | .s1Wait => s.wstate = .readOnly ∧ (InFlight s (.mode .eraseEnabled) .readOnly ∨ AtRest s .eraseEnabled)
  | .s2Issue => s.wstate = .eraseEnabled ∧ AtRest s .eraseEnabled
  | .s2Wait => s.wstate = .eraseEnabled ∧ (InFlight s .erase .eraseEnabled ∨ (AtRest s .eraseEnabled ∧ AllErased s))
  | .s3Issue => s.wstate = .eraseEnabled ∧ AtRest s .eraseEnabled ∧ AllErased s
  | .s3Wait => s.wstate = .eraseEnabled ∧ AllErased s ∧
      (InFlight s (.mode .writeEnabled) .eraseEnabled ∨ AtRest s .writeEnabled)
  | .s4Issue => s.wstate = .writeEnabled ∧ AtRest s .writeEnabled ∧ AllErased s
  | .s4Wait => s.wstate = .writeEnabled ∧ ((InFlight s (.program s.params.configAddr s.W) .writeEnabled ∧ AllErased s) ∨
      (AtRest s .writeEnabled ∧ OthersErased s ∧ Holds s s.params.target s.W))
  | .s5Issue => s.wstate = .writeEnabled ∧ AtRest s .writeEnabled ∧ OthersErased s ∧ Holds s s.params.target s.W
  | .s5Wait => s.wstate = .writeEnabled ∧ OthersErased s ∧ Holds s s.params.target s.W ∧
      (InFlight s (.mode .readOnly) .writeEnabled ∨ AtRest s .readOnly)
  | .ack => s.wstate = .readOnly ∧ AtRest s .readOnly ∧ OthersErased s ∧ Holds s s.params.target s.W
  | .restart => s.wstate = .readOnly ∧ AtRest s .readOnly ∧ OthersErased s ∧ Holds s s.params.target s.W
  | .fault => True

/-- The phases in which the block waits. -/
def waiting (p : Phase) : Bool :=
  match p with
  | .s1Wait | .s2Wait | .s3Wait | .s4Wait | .s5Wait => true
  | .idle | .encode | .s1Issue | .s2Issue | .s3Issue | .s4Issue | .s5Issue | .ack | .restart | .fault => false

/-- The block's own registers in a commit: R25 items 7 and 8, `restart_req` only in P_RESTART (R27, R103), and the
counter below its limit while the block waits (R70, R83). -/
structure BlockInv (s : State) : Prop where
  latched : s.phase ≠ .idle → s.latch = .latched
  packed : s.phase ≠ .idle → s.phase ≠ .encode → s.W &&& 0xFF000300#32 = 0#32
  restart : s.restartReq = true → s.phase = .restart
  unlimited : s.params.pollLimit = none → s.pollcnt = 0
  limited : ∀ l, s.params.pollLimit = some l → waiting s.phase = true → s.pollcnt.toNat < l

/-- The invariant of R25. -/
structure CommitInv (s : State) : Prop where
  ok : StateOk s
  seq : SequenceInv s
  blk : BlockInv s

/-! ### Runs -/

/-- R14: the phases that may follow a phase in a step of the block. -/
def successors (p : Phase) : List Phase :=
  match p with
  | .idle => [.idle, .encode]
  | .encode => [.s1Issue, .idle]
  | .s1Issue => [.s1Wait]
  | .s1Wait => [.s1Wait, .s2Issue, .fault]
  | .s2Issue => [.s2Wait]
  | .s2Wait => [.s2Wait, .s3Issue, .fault]
  | .s3Issue => [.s3Wait]
  | .s3Wait => [.s3Wait, .s4Issue, .fault]
  | .s4Issue => [.s4Wait]
  | .s4Wait => [.s4Wait, .s5Issue, .fault]
  | .s5Issue => [.s5Wait]
  | .s5Wait => [.s5Wait, .ack, .fault]
  | .ack => [.restart]
  | .restart => [.restart]
  | .fault => [.fault]

/-- Whose turns are already fixed: the next one, then the script's. -/
def upcoming (s : State) : List Turn :=
  s.turn :: s.script.map Stimulus.turn

/-- `k` steps of the machine. -/
abbrev run (k : Nat) (s : State) : Host.Outcome State Fault Refusal :=
  Host.Core.run Sys2Proof.core k s

/-- R144 (a): the success state, the only final one. -/
def Final (s : State) : Prop :=
  s.phase = .restart ∧ s.restartReq = true

/-- R144 (b): the fault state, never final. -/
def Faulted (s : State) : Prop :=
  s.phase = .fault

/-- What a step shows on the controller's port: a transfer, or a ready answer to a wait (R84). -/
inductive BusEvent where
  | transfer (op : BusOp)
  | answeredReady
deriving DecidableEq, Repr

/-- The bus events of the step from `s` to `t`. -/
def busEvents (s t : State) : List BusEvent :=
  (if s.turn = .block ∧ waiting s.phase = true ∧ s.ready = true then [.answeredReady] else []) ++
    (if t.bus = .idle then [] else [.transfer t.bus])

/-- A run in which only the block and the controller move, with the bus events it shows. -/
inductive Runs : State → List BusEvent → State → Prop where
  | refl (s : State) : Runs s [] s
  | tail {s t u : State} {es : List BusEvent} :
      Runs s es t → (t.turn = .block ∨ t.turn = .controller) → step t = .next u → Runs s (es ++ busEvents t u) u

/-- The requests a list of polls emits, the requests consumed without a restart (R89, C10): `latch` is carried on,
nothing else happens between the polls. -/
def pollRequests : List Level → State → List Bool
  | [], _ => []
  | lvl :: rest, s =>
    match exec .poll { s with pins := { s.pins with btnLevel := lvl } } with
    | .next t => decide (t.phase = .encode) :: pollRequests rest t
    | .fault _ => []
    | .refused _ => []

/-- R89: request `i` is emitted iff `lvl_i = 0` and the sample before it was not 0. -/
def pressEdges : Bool → List Level → List Bool
  | _, [] => []
  | wasPressed, lvl :: rest => (decide (lvl = .pressed) && !wasPressed) :: pressEdges (decide (lvl = .pressed)) rest

/-- The turns of one sequence step with `k` not-ready answers (R63): the issue, `k` spins, the completion, the ready wait. -/
def stepTurns (k : Nat) : List Turn :=
  .block :: (List.replicate k .block ++ [.controller, .block])

/-- The turns of a commit after its POLL (R145): ENCODE, five sequence steps, ACK, RESTART. -/
def commitTurns (k : SeqStep → Nat) : List Turn :=
  .block :: (stepTurns (k .s1) ++ stepTurns (k .s2) ++ stepTurns (k .s3) ++ stepTurns (k .s4) ++ stepTurns (k .s5) ++
    [.block, .block])

/-- All not-ready answers of a commit. -/
def totalSpins (k : SeqStep → Nat) : Nat :=
  k .s1 + k .s2 + k .s3 + k .s4 + k .s5

/-- A wait may see `n` not-ready answers without a timeout (R83). -/
def WithinLimit (p : Params) (n : Nat) : Prop :=
  ∀ l, p.pollLimit = some l → n < l

/-! ### Fairness: premises of a claim of termination (R143, R49) -/

/-- R144: the run from `s` has not ended at step `k` or before: at each of these steps the block has a step enabled. -/
def Going (s : State) (k : Nat) : Prop :=
  ∀ i ≤ k, ∃ t, run i s = .next t ∧ t.blockEnabled = true

/-- R49: `Complete` is weakly fair: an operation in flight in the run is eventually completed. -/
def CompleteFair (s : State) : Prop :=
  ∀ k t, Going s k → run k s = .next t → t.nvBusy = true → ∃ j u, run (k + j) s = .next u ∧ u.nvBusy = false

/-- R49, R8: the run from `s` is one that the parameter `NV_COMPLETES` admits. -/
def NvCompletes (s : State) : Prop :=
  s.params.nvCompletes = true → CompleteFair s

/-- R143: the block's own steps are weakly fair: an enabled step is eventually taken. -/
def BlockFair (s : State) : Prop :=
  ∀ k, Going s k → ∃ j t, run (k + j) s = .next t ∧ t.turn = .block

/-- R128, R132: the run has no reset and no other master in it. -/
def Undisturbed (s : State) : Prop :=
  ∀ k t, Going s k → run k s = .next t → t.turn = .block ∨ t.turn = .controller

end Sys2Proof.Safety
end

