-- ==== Sys2Proof/Certificates/Slice0/Obligations.lean ====
section
/-! DEFINITION. The statements about the model, in the terms of Sys2Proof/Safety.lean. Each docstring names the rules of spec/ it rests on. -/

open Sys2Proof Sys2Proof.Machine Sys2Proof.Safety

/-! ### Encodings -/

/-- R51, R55, R56, R57, R60: codes and words written out from the tables decode to what they stand for; reserved ones are
rejected by name (the last word is the source's wrong literal, C1). -/
def Obligations.DecodeKnownCodes : Prop :=
  decode (.phase 0b0000#4) = .ok .poll ∧ decode (.phase 0b0001#4) = .ok .encode ∧
  decode (.phase 0b0100#4) = .ok .eraseRegion ∧ decode (.phase 0b1000#4) = .ok .storeWord ∧
  decode (.phase 0b1110#4) = .ok .halt ∧ decode (.phase 0b1111#4) = .error .reservedPhase ∧
  decode (.bus 0b01#2 0b10#2 0#32 0#32) = .ok (.nvMode .eraseEnabled) ∧
  decode (.bus 0b01#2 0b11#2 0#32 0#32) = .error .reservedMode ∧
  decode (.bus 0b11#2 0b00#2 0x10001008#32 0x00BB840A#32) = .ok (.memWrite 0x10001008#32 0x00BB840A#32) ∧
  decode (.word 0x00BB840A#32) = .ok (.packedWord 0x00BB840A#32) ∧
  decode (.word 0x0BB80409#32) = .error .reservedBits

/-- R51, R55 to R57: decoding what is presented for a well-formed instruction gives it back, whatever its operands and
whatever the wires carry that its command does not use. -/
def Obligations.DecodeEncode : Prop :=
  ∀ (modeVal : BitVec 2) (addr wdata : Word) (i : Instr), i.wellFormed = true →
    decode (encodeOn modeVal addr wdata i) = .ok i

/-- R51, R55 to R57: the other direction. What decodes to an instruction is an encoding of it: the instruction is
well-formed, and the encoder presents the same thing when the wires that the command does not use are given. -/
def Obligations.EncodeDecode : Prop :=
  ∀ (p : Presented) (i : Instr), decode p = .ok i →
    i.wellFormed = true ∧ ∃ modeVal addr wdata, p = encodeOn modeVal addr wdata i

/-- R55, R56, R58, R59 (codes of the spec's own, D9, D10, D15, D27): every phase, mode and error code; distinct names have
distinct codes; phase code 15 and mode code 3 name nothing. -/
def Obligations.RegisterCodes : Prop :=
  [Phase.idle, .encode, .s1Issue, .s1Wait, .s2Issue, .s2Wait, .s3Issue, .s3Wait, .s4Issue, .s4Wait, .s5Issue, .s5Wait,
    .ack, .restart, .fault].map (fun p => p.code.toNat) = [0, 1, 2, 3, 4, 5, 6, 7, 8, 9, 10, 11, 12, 13, 14] ∧
  (∀ p q : Phase, p.code = q.code → p = q) ∧ (∀ p : Phase, p.code ≠ 15) ∧
  Mode.readOnly.code = 0 ∧ Mode.writeEnabled.code = 1 ∧ Mode.eraseEnabled.code = 2 ∧ (∀ m : Mode, m.code ≠ 3) ∧
  Err.noError.code = 0b00000 ∧ (Err.fieldOverflow .offset).code = 0b01000 ∧ (Err.fieldOverflow .mode).code = 0b01001 ∧
  (Err.fieldOverflow .status).code = 0b01010 ∧ (Err.fieldOverflow .setpoint).code = 0b01011 ∧
  (Err.hardwareTimeout .s1).code = 0b10001 ∧ (Err.hardwareTimeout .s2).code = 0b10010 ∧
  (Err.hardwareTimeout .s3).code = 0b10011 ∧ (Err.hardwareTimeout .s4).code = 0b10100 ∧
  (Err.hardwareTimeout .s5).code = 0b10101 ∧ (∀ e f : Err, e.code = f.code → e = f) ∧
  Latch.armed.code = 0 ∧ Latch.latched.code = 1 ∧ Level.pressed.code = 0 ∧ Level.released.code = 1

/-! ### The calibration encoder -/

/-- R52: the four shifted fields or-ed are the concatenation, and their sum: they do not overlap. -/
def Obligations.FieldAssembly : Prop :=
  ∀ r : Record,
    packFields r = r.offset.setWidth 32 ||| (r.mode.setWidth 32 <<< 10) ||| (r.status.setWidth 32 <<< 12) |||
      (r.setpoint.setWidth 32 <<< 14) ∧
    packFields r = 0#8 ++ r.setpoint ++ r.status ++ r.mode ++ 0#2 ++ r.offset ∧
    packFields r = r.offset.setWidth 32 + (r.mode.setWidth 32 <<< 10) + (r.status.setWidth 32 <<< 12) +
      (r.setpoint.setWidth 32 <<< 14)

/-- R53: the reserved bits of every word the block produces are zero; a word with a reserved bit set has no meaning: the
reference decoder refuses it. -/
def Obligations.ReservedBits : Prop :=
  (∀ o m st sp w : Word, encodeRecord o m st sp = .ok w → w.extractLsb' 8 2 = 0 ∧ w.extractLsb' 24 8 = 0) ∧
  (∀ w : Word, w.extractLsb' 8 2 ≠ 0 ∨ w.extractLsb' 24 8 ≠ 0 →
    decodeRecord w = none ∧ decode (.word w) = .error .reservedBits)

/-- R65, R70: the word of in-range parameters, as a number. -/
def Obligations.EncoderValue : Prop :=
  ∀ o m st sp : Word, o.toNat < 2 ^ 8 → m.toNat < 2 ^ 2 → st.toNat < 2 ^ 2 → sp.toNat < 2 ^ 10 →
    ∃ w, encodeRecord o m st sp = .ok w ∧
      w.toNat = o.toNat + m.toNat * 2 ^ 10 + st.toNat * 2 ^ 12 + sp.toNat * 2 ^ 14

/-- R65, R106 (order of the checks: the spec's decision D3): when the encoder refuses, and which field it names. -/
def Obligations.EncoderRefuses : Prop :=
  ∀ o m st sp : Word,
    (encodeRecord o m st sp = .error .offset ↔ 2 ^ 8 ≤ o.toNat) ∧
    (encodeRecord o m st sp = .error .mode ↔ o.toNat < 2 ^ 8 ∧ 2 ^ 2 ≤ m.toNat) ∧
    (encodeRecord o m st sp = .error .status ↔ o.toNat < 2 ^ 8 ∧ m.toNat < 2 ^ 2 ∧ 2 ^ 2 ≤ st.toNat) ∧
    (encodeRecord o m st sp = .error .setpoint ↔
      o.toNat < 2 ^ 8 ∧ m.toNat < 2 ^ 2 ∧ st.toNat < 2 ^ 2 ∧ 2 ^ 10 ≤ sp.toNat)

/-- R66: a field overflows exactly when a bit at or above its width is set in the whole 32-bit input; then ENCODE makes no
bus transfer and leaves controller and region alone. -/
def Obligations.OverflowIsHighBits : Prop :=
  (∀ v : Word, (overflows Field.offset.width v = true ↔ v.extractLsb' 8 24 ≠ 0) ∧
    (overflows Field.mode.width v = true ↔ v.extractLsb' 2 30 ≠ 0) ∧
    (overflows Field.status.width v = true ↔ v.extractLsb' 2 30 ≠ 0) ∧
    (overflows Field.setpoint.width v = true ↔ v.extractLsb' 10 22 ≠ 0)) ∧
  (∀ s : State, overflows Field.offset.width s.pins.pOffset = true ∨ overflows Field.mode.width s.pins.pMode = true ∨
      overflows Field.status.width s.pins.pStatus = true ∨ overflows Field.setpoint.width s.pins.pSetpoint = true →
    ∃ t f, exec .encode s = .next t ∧ t.err = .fieldOverflow f ∧ NoTransfer t ∧ SameController s t)

/-- R68: the round-trip laws of ENCODE and DECODE, and injectivity. -/
def Obligations.EncoderRoundTrip : Prop :=
  (∀ o m st sp : Word, o.toNat < 2 ^ 8 → m.toNat < 2 ^ 2 → st.toNat < 2 ^ 2 → sp.toNat < 2 ^ 10 →
    ∃ w r, encodeRecord o m st sp = .ok w ∧ w &&& 0xFF000300#32 = 0 ∧ decodeRecord w = some r ∧
      r.offset.toNat = o.toNat ∧ r.mode.toNat = m.toNat ∧ r.status.toNat = st.toNat ∧ r.setpoint.toNat = sp.toNat) ∧
  (∀ w : Word, w &&& 0xFF000300#32 = 0 → ∃ r, decodeRecord w = some r ∧
    encodeRecord (r.offset.setWidth 32) (r.mode.setWidth 32) (r.status.setWidth 32) (r.setpoint.setWidth 32) = .ok w) ∧
  (∀ o m st sp o' m' st' sp' w : Word, encodeRecord o m st sp = .ok w → encodeRecord o' m' st' sp' = .ok w →
    o = o' ∧ m = m' ∧ st = st' ∧ sp = sp')

/-! ### The trigger -/

/-- R88: POLL, its complete truth table, and what it leaves alone. -/
def Obligations.PollTable : Prop :=
  ∀ s : State, ∃ t, exec .poll s = .next t ∧
    (s.latch = .armed → s.pins.btnLevel = .pressed → t.latch = .latched ∧ t.phase = .encode) ∧
    (s.latch = .armed → s.pins.btnLevel = .released → t.latch = .armed ∧ t.phase = .idle) ∧
    (s.latch = .latched → s.pins.btnLevel = .pressed → t.latch = .latched ∧ t.phase = .idle) ∧
    (s.latch = .latched → s.pins.btnLevel = .released → t.latch = .armed ∧ t.phase = .idle) ∧
    t.wstate = s.wstate ∧ t.W = s.W ∧ t.pollcnt = s.pollcnt ∧ t.err = s.err ∧ t.restartReq = s.restartReq ∧
    NoTransfer t ∧ NoEvent t ∧ SameController s t ∧ SameWorld s t

/-- R89: over any sequence of polls, a request is emitted iff the sample is 0 and the one before it was not, the first
sample after a reset counting as following a released one. -/
def Obligations.OneRequestPerPress : Prop :=
  (∀ (lvls : List Level) (s : State), pollRequests lvls s = pressEdges (decide (s.latch = .latched)) lvls) ∧
  (∀ (lvls : List Level) (p : Params), pollRequests lvls (State.resetWith p) = pressEdges false lvls)

/-- R130, R131: after any reset, whatever the state before, a sample that reads 0 emits a request at once: a button held
across the restart commits again. -/
def Obligations.HeldAcrossReset : Prop :=
  ∀ (s : State) (fate : ControllerFate), s.pins.btnLevel = .pressed →
    ∃ t, exec .poll (platformReset fate s) = .next t ∧ t.phase = .encode ∧ t.latch = .latched

/-! ### The controller's own operations -/

/-- R96, R97: ENCODE with parameters in range. -/
def Obligations.EncodeAccepts : Prop :=
  ∀ (s : State) (w : Word), PortsEncodeTo s.pins w →
    ∃ t, exec .encode s = .next t ∧ t.W = w ∧ t.err = .noError ∧ t.phase = .s1Issue ∧
      t.diagKind = 1 ∧ t.diagData = w ∧ NoTransfer t ∧
      t.latch = s.latch ∧ t.wstate = s.wstate ∧ t.pollcnt = s.pollcnt ∧ t.restartReq = s.restartReq ∧
      SameController s t ∧ SameWorld s t

/-- R108, with the event's codes of R101, R62 and R58 (the spec's decisions D15, D16): FieldOverflow entry: what changes and
what does not. -/
def Obligations.OverflowEntry : Prop :=
  ∀ (s : State) (f : Field),
    encodeRecord s.pins.pOffset s.pins.pMode s.pins.pStatus s.pins.pSetpoint = .error f →
    ∃ t, exec .encode s = .next t ∧ t.err = .fieldOverflow f ∧ t.phase = .idle ∧
      t.diagKind = 3 ∧ t.diagData = (Err.fieldOverflow f).code.setWidth 32 ∧ NoTransfer t ∧
      t.W = s.W ∧ t.wstate = s.wstate ∧ t.latch = s.latch ∧ t.pollcnt = s.pollcnt ∧ t.restartReq = s.restartReq ∧
      SameController s t ∧ SameWorld s t

/-- R100 (place of the event: the spec's decision D16): ACK. -/
def Obligations.AckEffect : Prop :=
  ∀ s : State, ∃ t, exec .ack s = .next t ∧ t.phase = .restart ∧ t.diagKind = 2 ∧ t.diagData = 0 ∧ NoTransfer t ∧
    t.latch = s.latch ∧ t.wstate = s.wstate ∧ t.W = s.W ∧ t.pollcnt = s.pollcnt ∧ t.err = s.err ∧
    t.restartReq = s.restartReq ∧ SameController s t ∧ SameWorld s t

/-- R102: RESTART raises the restart line, which is 1 from then on, and changes nothing else; with the line already up no
register of the block changes (that the block's turn then passes is the model's choice, log 11). -/
def Obligations.RestartEffect : Prop :=
  ∀ s : State, ∃ t, exec .restart s = .next t ∧ t.restartReq = true ∧ (s.restartReq = true → SameBlock s t) ∧
    t.phase = s.phase ∧ t.latch = s.latch ∧ t.wstate = s.wstate ∧ t.W = s.W ∧ t.pollcnt = s.pollcnt ∧ t.err = s.err ∧
    NoTransfer t ∧ NoEvent t ∧ SameController s t ∧ SameWorld s t

/-- R103 (the spec's decision D13; that the block's turn passes is the model's choice, log 11): in P_FAULT nothing of the
block changes and nothing is driven. -/
def Obligations.HaltHolds : Prop :=
  ∀ s : State, ∃ t, exec .halt s = .next t ∧ SameBlock s t ∧ t.errCode = s.err.code ∧ NoTransfer t ∧ NoEvent t ∧
    SameController s t ∧ SameWorld s t

/-! ### The sequencer: issues -/

/-- R73, R77, R81: MODE_ERASE_EN, MODE_WRITE_EN and MODE_READ_ONLY with a ready controller: the mode write is in flight, the
block waits, and no byte of the region changes for any observer. -/
def Obligations.ModeIssues : Prop :=
  ∀ s : State, s.nvBusy = false →
    (∃ t, exec .modeEraseEn s = .next t ∧ Issued s t .s1 (.mode .eraseEnabled) (.mode .eraseEnabled) ∧
      t.nvCmd = 1 ∧ t.nvModeVal = 2 ∧ ∀ a, t.observeByte a = s.observeByte a) ∧
    (∃ t, exec .modeWriteEn s = .next t ∧ Issued s t .s3 (.mode .writeEnabled) (.mode .writeEnabled) ∧
      t.nvCmd = 1 ∧ t.nvModeVal = 1 ∧ ∀ a, t.observeByte a = s.observeByte a) ∧
    (∃ t, exec .modeReadOnly s = .next t ∧ Issued s t .s5 (.mode .readOnly) (.mode .readOnly) ∧
      t.nvCmd = 1 ∧ t.nvModeVal = 0 ∧ ∀ a, t.observeByte a = s.observeByte a)

/-- R75, R42: ERASE_REGION with the controller ready and erase-enabled: the erase is in flight, every byte outside the
region is as before, and every byte of the region is unspecified, which the model renders as no value (log 9). -/
def Obligations.EraseIssue : Prop :=
  ∀ s : State, s.nvBusy = false → s.nvMode = .eraseEnabled →
    ∃ t, exec .eraseRegion s = .next t ∧ Issued s t .s2 .erase .erase ∧ t.nvCmd = 2 ∧
      (∀ a, a < s.params.regionBase.toNat ∨ s.params.regionEnd ≤ a → t.observeByte a = s.observeByte a) ∧
      (∀ a, s.params.regionBase.toNat ≤ a → a < s.params.regionEnd → t.observeByte a = none)

/-- R79, R42: STORE_WORD with the controller ready and write-enabled: the word `W` is on its way to `CONFIG_ADDR`, every
byte outside those four is as before, and those four are unspecified, which the model renders as no value (log 9). -/
def Obligations.StoreIssue : Prop :=
  ∀ s : State, s.nvBusy = false → s.nvMode = .writeEnabled → s.params.legal = true →
    ∃ t, exec .storeWord s = .next t ∧
      Issued s t .s4 (.write s.params.configAddr s.W) (.program s.params.configAddr s.W) ∧
      t.nvCmd = 3 ∧ t.nvAddr = s.params.configAddr ∧ t.nvWdata = s.W ∧
      (∀ a, a < s.params.configAddr.toNat ∨ s.params.configAddr.toNat + 4 ≤ a → t.observeByte a = s.observeByte a) ∧
      (∀ a, s.params.configAddr.toNat ≤ a → a < s.params.configAddr.toNat + 4 → t.observeByte a = none)

/-- R43, R73, R75, R77, R79, R81: when an issue is a contract violation. -/
def Obligations.IssueViolations : Prop :=
  ∀ s : State,
    (exec .modeEraseEn s = .fault .nvContractViolation ↔ s.nvBusy = true) ∧
    (exec .modeWriteEn s = .fault .nvContractViolation ↔ s.nvBusy = true) ∧
    (exec .modeReadOnly s = .fault .nvContractViolation ↔ s.nvBusy = true) ∧
    (exec .eraseRegion s = .fault .nvContractViolation ↔ s.nvBusy = true ∨ s.nvMode ≠ .eraseEnabled) ∧
    (exec .storeWord s = .fault .nvContractViolation ↔
      s.nvBusy = true ∨ s.nvMode ≠ .writeEnabled ∨ s.params.storable s.params.configAddr = false)

/-! ### The sequencer: waits -/

/-- R83 with R74, R76, R78, R80, R82: WAIT1 to WAIT5 on a ready answer. -/
def Obligations.WaitReady : Prop :=
  ∀ (k : SeqStep) (s : State), s.nvBusy = false →
    ∃ t, exec (match k with | .s1 => .wait1 | .s2 => .wait2 | .s3 => .wait3 | .s4 => .wait4 | .s5 => .wait5) s = .next t ∧
      t.phase = (match k with | .s1 => .s2Issue | .s2 => .s3Issue | .s3 => .s4Issue | .s4 => .s5Issue | .s5 => .ack) ∧
      t.wstate = (match k with
        | .s1 => .eraseEnabled | .s2 => s.wstate | .s3 => .writeEnabled | .s4 => s.wstate | .s5 => .readOnly) ∧
      t.pollcnt = 0 ∧ t.latch = s.latch ∧ t.W = s.W ∧ t.err = s.err ∧ t.restartReq = s.restartReq ∧
      NoTransfer t ∧ NoEvent t ∧ SameController s t ∧ SameWorld s t

/-- R83 (the spec's decision D12): WAIT1 to WAIT5 on a not-ready answer below the limit, or without one. -/
def Obligations.WaitSpins : Prop :=
  ∀ (k : SeqStep) (s : State), s.nvBusy = true → WithinLimit s.params (s.pollcnt.toNat + 1) →
    ∃ t, exec (match k with | .s1 => .wait1 | .s2 => .wait2 | .s3 => .wait3 | .s4 => .wait4 | .s5 => .wait5) s = .next t ∧
      t.phase = k.waitPhase ∧ (s.params.pollLimit = none → t.pollcnt = s.pollcnt) ∧
      (s.params.pollLimit ≠ none → t.pollcnt = s.pollcnt + 1) ∧
      t.latch = s.latch ∧ t.wstate = s.wstate ∧ t.W = s.W ∧ t.err = s.err ∧ t.restartReq = s.restartReq ∧
      NoTransfer t ∧ NoEvent t ∧ SameController s t ∧ SameWorld s t

/-- R83, R112 (the spec's decisions D12, D13): WAIT1 to WAIT5 on the not-ready answer that reaches the limit:
HardwareTimeout entry, what changes and what does not. -/
def Obligations.TimeoutEntry : Prop :=
  ∀ (k : SeqStep) (s : State) (l : Nat), s.nvBusy = true → s.params.pollLimit = some l → l ≤ s.pollcnt.toNat + 1 →
    ∃ t, exec (match k with | .s1 => .wait1 | .s2 => .wait2 | .s3 => .wait3 | .s4 => .wait4 | .s5 => .wait5) s = .next t ∧
      t.phase = .fault ∧ t.err = .hardwareTimeout k ∧ t.diagKind = 3 ∧
      t.diagData = (Err.hardwareTimeout k).code.setWidth 32 ∧ t.pollcnt = s.pollcnt + 1 ∧
      t.latch = s.latch ∧ t.wstate = s.wstate ∧ t.W = s.W ∧ t.restartReq = s.restartReq ∧
      NoTransfer t ∧ SameController s t ∧ SameWorld s t

/-- R83, R114: while the controller stays busy, a wait without a limit, or with more reads allowed, spins any number of
times and changes nothing but the counter. -/
def Obligations.WaitSpinsOn : Prop :=
  ∀ (k : SeqStep) (n : Nat) (s : State) (x : Turn) (rest : List Turn),
    s.params.legal = true → s.phase = k.waitPhase → s.nvBusy = true → s.pollcnt = 0 →
    upcoming s = List.replicate n .block ++ x :: rest → WithinLimit s.params n →
    ∃ t, run n s = .next t ∧ t.phase = k.waitPhase ∧ upcoming t = x :: rest ∧
      (s.params.pollLimit = none → t.pollcnt = 0) ∧ (s.params.pollLimit ≠ none → t.pollcnt.toNat = n) ∧
      t.latch = s.latch ∧ t.wstate = s.wstate ∧ t.W = s.W ∧ t.err = s.err ∧ t.restartReq = s.restartReq ∧
      SameController s t ∧ t.params = s.params

/-- R83, R110, R105 (c): with `POLL_LIMIT = some L` the `L`-th consecutive not-ready answer of a wait raises
HardwareTimeout, and no earlier one does. -/
def Obligations.WaitTimesOut : Prop :=
  ∀ (k : SeqStep) (l : Nat) (s : State) (rest : List Turn),
    s.params.legal = true → s.params.pollLimit = some l → s.phase = k.waitPhase → s.nvBusy = true → s.pollcnt = 0 →
    upcoming s = List.replicate l .block ++ rest →
    (∀ n < l, ∃ t, run n s = .next t ∧ t.phase = k.waitPhase) ∧
    ∃ t, run l s = .next t ∧ t.phase = .fault ∧ t.err = .hardwareTimeout k ∧ t.restartReq = s.restartReq ∧
      t.wstate = s.wstate ∧ t.W = s.W ∧ SameController s t

/-! ### The bus operations -/

/-- R37: NvMode: accepted exactly when the controller is ready; the new mode is in force when the operation completes. -/
def Obligations.NvModeContract : Prop :=
  ∀ (m : Mode) (s : State),
    (s.nvBusy = true → exec (.nvMode m) s = .fault .nvContractViolation) ∧
    (s.nvBusy = false → ∃ t, exec (.nvMode m) s = .next t ∧ Accepted s t (.mode m) (.mode m) ∧
      t.nvCmd = 1 ∧ t.nvModeVal = m.code ∧ (∀ a, t.observeByte a = s.observeByte a) ∧ (complete t).nvMode = m)

/-- R38: NvErase: accepted exactly when the controller is ready and erase-enabled. -/
def Obligations.NvEraseContract : Prop :=
  ∀ s : State,
    (s.nvBusy = true ∨ s.nvMode ≠ .eraseEnabled → exec .nvErase s = .fault .nvContractViolation) ∧
    (s.nvBusy = false → s.nvMode = .eraseEnabled → ∃ t, exec .nvErase s = .next t ∧ Accepted s t .erase .erase ∧
      t.nvCmd = 2 ∧
      ∀ a, a < s.params.regionBase.toNat ∨ s.params.regionEnd ≤ a → t.observeByte a = s.observeByte a)

/-- R39: MemWrite: accepted exactly when the controller is ready and write-enabled and the address is an aligned one of the
region; the four bytes at that address are the ones on their way; the block only ever stores `W` at `CONFIG_ADDR`. -/
def Obligations.MemWriteContract : Prop :=
  ∀ (a v : Word) (s : State),
    (s.nvBusy = true ∨ s.nvMode ≠ .writeEnabled ∨ a.toNat % 4 ≠ 0 ∨ a.toNat < s.params.regionBase.toNat ∨
        s.params.regionBase.toNat + 4 * s.params.regionWords ≤ a.toNat →
      exec (.memWrite a v) s = .fault .nvContractViolation) ∧
    (s.nvBusy = false → s.nvMode = .writeEnabled → a.toNat % 4 = 0 → s.params.regionBase.toNat % 4 = 0 →
        s.params.regionBase.toNat ≤ a.toNat → a.toNat < s.params.regionBase.toNat + 4 * s.params.regionWords →
      ∃ t, exec (.memWrite a v) s = .next t ∧ Accepted s t (.write a v) (.program a v) ∧
        t.nvCmd = 3 ∧ t.nvAddr = a ∧ t.nvWdata = v ∧
        ∀ b, b < a.toNat ∨ a.toNat + 4 ≤ b → t.observeByte b = s.observeByte b) ∧
    (∀ (i : Instr) (p : Phase) (t : State), i.phase? = some p → exec i s = .next t → t.bus = .write a v →
      i = .storeWord ∧ a = s.params.configAddr ∧ v = s.W)

/-- R40: NvReady: answers 1 when the controller is not busy and 0 when it is; no side effect. -/
def Obligations.NvReadyAnswer : Prop :=
  ∀ s : State, ∃ t, exec .nvReady s = .next t ∧ (s.nvBusy = false → s.nvReadyWire = 1) ∧
    (s.nvBusy = true → s.nvReadyWire = 0) ∧ t.nvReadyWire = s.nvReadyWire ∧ NoTransfer t ∧ NoEvent t ∧ SameBlock s t ∧
    SameController s t ∧ SameWorld s t

/-- R64: PACKEDWORD is the data format and no operation: it is refused by name, whatever the word (log 15). -/
def Obligations.PackedWordIsData : Prop :=
  ∀ (w : Word) (s : State), exec (.packedWord w) s = .refused .dataFormat

/-! ### The memory controller and the region -/

/-- R41: completing a mode change puts the mode in force; with nothing in flight there is nothing to complete. -/
def Obligations.CompleteMode : Prop :=
  ∀ s : State,
    (∀ m, s.nvBusy = true → s.nvPending = .mode m → (complete s).nvMode = m ∧ (complete s).nvBusy = false ∧
      (complete s).nvPending = .none ∧ (complete s).mem = s.mem ∧ SameBlock s (complete s) ∧ SameWorld s (complete s)) ∧
    (s.nvBusy = false → SameBlock s (complete s) ∧ SameController s (complete s) ∧ SameWorld s (complete s))

/-- R41 (`ERASED_WORD`: the spec's decision D5): completing an erase makes every region word erased and changes no byte
outside the region. -/
def Obligations.CompleteErase : Prop :=
  ∀ s : State, s.nvBusy = true → s.nvPending = .erase →
    (∀ i < s.params.regionWords, (complete s).observeWord i = some s.params.erasedWord) ∧
    (∀ a, a < s.params.regionBase.toNat ∨ s.params.regionEnd ≤ a → (complete s).observeByte a = s.observeByte a) ∧
    (complete s).nvBusy = false ∧ (complete s).nvPending = .none ∧ (complete s).nvMode = s.nvMode ∧
    SameBlock s (complete s) ∧ SameWorld s (complete s)

/-- R41, R34 (the spec's decisions D6, D7): completing a program of an erased word stores the word, little-endian, and
changes no other byte of the region (a word not erased is U6's, log 9). -/
def Obligations.CompleteProgram : Prop :=
  ∀ (s : State) (a v : Word), s.nvBusy = true → s.nvPending = .program a v → s.params.regionBase.toNat % 4 = 0 →
    s.params.storable a = true →
    (∀ b, b < a.toNat ∨ a.toNat + 4 ≤ b → (complete s).observeByte b = s.observeByte b) ∧
    (complete s).nvBusy = false ∧ (complete s).nvPending = .none ∧ (complete s).nvMode = s.nvMode ∧
    SameBlock s (complete s) ∧ SameWorld s (complete s) ∧
    (Memory.readWord s.mem a.toNat = some s.params.erasedWord → (complete s).memRead a = some v ∧
      ∀ j < 4, (complete s).observeByte (a.toNat + j) = some (v.extractLsb' (8 * j) 8))

/-! ### Reset -/

/-- R24 (the spec's decision D18) and R127: the block after reset, for any parameters. Nothing is said of `W`, which the
spec leaves unspecified, nor of the controller and the input ports, which log entries 4 and 7 name; that the region's
unknown contents (R31) read as no value is the model's choice (log 8). -/
def Obligations.ResetState : Prop :=
  ∀ p : Params, let s := State.resetWith p
    s.latch = .armed ∧ s.phase = .idle ∧ s.wstate = .readOnly ∧ s.pollcnt = 0 ∧ s.err = .noError ∧ s.restartReq = false ∧
    NoTransfer s ∧ NoEvent s ∧ s.params = p ∧ s.phase.operation = .poll ∧ ∀ i, s.observeWord i = none

/-- R126, R127, R132: a reset of the platform, from any state: the block is in its reset state and the first step is a POLL;
every byte that no operation in flight disturbs keeps its value; a reset that cuts nothing short leaves the controller alone
(what a reset makes of an operation in flight is the model's choice, log 10). -/
def Obligations.PlatformReset : Prop :=
  ∀ (s : State) (fate : ControllerFate), let t := platformReset fate s
    t.latch = .armed ∧ t.phase = .idle ∧ t.wstate = .readOnly ∧ t.pollcnt = 0 ∧ t.err = .noError ∧ t.restartReq = false ∧
    NoTransfer t ∧ NoEvent t ∧ SameWorld s t ∧ t.phase.operation = .poll ∧
    (∀ a, s.disturbed a = false → t.observeByte a = s.observeByte a) ∧
    (s.nvBusy = false → s.phase.midSequence = false → SameController s t)

/-! ### The step -/

/-- R14, R4: when the phase code decodes to an instruction and the block has the turn, a step is that instruction, then the
environment's next choice, which touches only the input ports, the turn and the model's script and counter (the model's fields, logs 1 and 2). -/
def Obligations.StepRunsDecoded : Prop :=
  (∀ (s : State) (i : Instr), s.params.legal = true → s.turn = .block → decode (.phase s.phase.code) = .ok i →
    step s = onNext advance (exec i s)) ∧
  (∀ s : State, SameBlock s (advance s) ∧ SameController s (advance s) ∧ (advance s).bus = s.bus ∧
    (advance s).diag = s.diag ∧ (advance s).params = s.params ∧
    ∀ c rest, s.script = c :: rest → (advance s).turn = c.turn ∧ (advance s).pins = c.pins ∧ (advance s).script = rest)

/-- R41, R126, R47, R35: the steps that are not the block's, and what is refused (that another master's transfer outside the
sequence runs, with the block's own outputs idle, and that a configuration is refused at every step, are the model's choices,
logs 13 and 18). -/
def Obligations.StepOfOthers : Prop :=
  ∀ s : State,
    (s.params.legal = false → step s = .refused .illegalParams) ∧
    (s.params.legal = true →
      (s.turn = .controller → step s = .next (advance (complete s))) ∧
      (∀ fate, s.turn = .platform fate → step s = .next (advance (platformReset fate s))) ∧
      (∀ op, s.turn = .otherMaster op → s.phase.inSequence = true → step s = .refused .otherMasterInSequence) ∧
      (∀ op, s.turn = .otherMaster op → s.phase.inSequence = false →
        step s = onNext (fun t => advance t.quiet) (exec op.operation s)))

/-! ### Invariants -/

/-- R36, R39, R31: whatever the world does, a step keeps the memory in its canonical form and inside the region, the pending
operation in step with the busy flag, and a program in flight inside the region. -/
def Obligations.StepKeepsStateOk : Prop :=
  ∀ s t : State, StateOk s → step s = .next t → StateOk t

/-- The state after reset meets that invariant and R25's (its controller is the model's choice, log 7). -/
def Obligations.ResetMeetsInvariants : Prop :=
  ∀ p : Params, StateOk (State.resetWith p) ∧ CommitInv (State.resetWith p)

/-- R25: a step keeps the invariants of a commit, unless another master uses the controller or a reset cuts a sequence
short. -/
def Obligations.StepKeepsCommitInv : Prop :=
  ∀ s t : State, CommitInv s → Permitted s → step s = .next t → CommitInv t

/-- R25 items 1 to 8, in an observer's terms, follow from that invariant. -/
def Obligations.CommitInvariants : Prop :=
  ∀ s : State, s.params.legal = true → CommitInv s →
    (s.phase ∈ [.idle, .encode, .s1Issue, .ack, .restart] →
      s.wstate = .readOnly ∧ s.nvMode = .readOnly ∧ s.nvBusy = false) ∧
    (s.phase ∈ [.s2Issue, .s3Issue] → s.wstate = .eraseEnabled ∧ s.nvMode = .eraseEnabled ∧ s.nvBusy = false) ∧
    (s.phase ∈ [.s4Issue, .s5Issue] → s.wstate = .writeEnabled ∧ s.nvMode = .writeEnabled ∧ s.nvBusy = false) ∧
    (s.nvBusy = false ↔ s.nvPending = .none) ∧
    (s.phase ∈ [.s3Issue, .s3Wait, .s4Issue] →
      ∀ i < s.params.regionWords, s.observeWord i = some s.params.erasedWord) ∧
    (s.phase ∈ [.s4Wait, .s5Issue, .s5Wait, .ack, .restart] →
      ∀ i < s.params.regionWords, i ≠ s.params.target → s.observeWord i = some s.params.erasedWord) ∧
    (s.phase ∈ [.s5Issue, .s5Wait, .ack, .restart] →
      s.observeWord s.params.target = some s.W ∧ s.memRead s.params.configAddr = some s.W) ∧
    (s.phase ≠ .idle → s.latch = .latched) ∧
    (s.phase ≠ .idle → s.phase ≠ .encode → s.W &&& 0xFF000300#32 = 0)

/-- R25 items 2 to 4, R43: under that invariant the block's own step is never a contract violation; it always answers a next
state. -/
def Obligations.BlockNeverViolates : Prop :=
  ∀ s : State, s.params.legal = true → CommitInv s → s.turn = .block → ∃ t, step s = .next t

/-! ### Rules of the whole machine -/

/-- R10 (the column "written by"), R11, R12, R15, R16, R17, R27, R45: which instructions may change which register; none
changes the mode register, the region, the inputs or the parameters. -/
def Obligations.WrittenBy : Prop :=
  ∀ (i : Instr) (s t : State), exec i s = .next t →
    (t.latch ≠ s.latch → i = .poll) ∧ (t.W ≠ s.W → i = .encode) ∧
    (t.wstate ≠ s.wstate → i = .wait1 ∧ t.wstate = .eraseEnabled ∨ i = .wait3 ∧ t.wstate = .writeEnabled ∨
      i = .wait5 ∧ t.wstate = .readOnly) ∧
    (t.err ≠ s.err → i ∈ [.encode, .wait1, .wait2, .wait3, .wait4, .wait5]) ∧
    (t.pollcnt ≠ s.pollcnt → i ∈ [.modeEraseEn, .wait1, .eraseRegion, .wait2, .modeWriteEn, .wait3, .storeWord, .wait4,
      .modeReadOnly, .wait5]) ∧
    (t.restartReq ≠ s.restartReq → i = .restart ∧ t.restartReq = true) ∧
    (t.nvBusy ≠ s.nvBusy → t.nvBusy = true) ∧ t.nvMode = s.nvMode ∧ t.mem = s.mem ∧ SameWorld s t

/-- R14: the block's step takes `phase` to one of the successors the table gives it. -/
def Obligations.PhaseSuccessors : Prop :=
  ∀ s t : State, s.turn = .block → step s = .next t → t.phase ∈ successors s.phase

/-- R45, R132, R8: the region changes only when the controller completes an erase or a program, or when a reset ends an
operation in flight (log 10); a mode change never changes it; the parameters never change. -/
def Obligations.RegionChanges : Prop :=
  ∀ s t : State, step s = .next t → t.params = s.params ∧
    (t.mem ≠ s.mem → s.nvBusy = true ∧ (s.nvPending = .erase ∨ ∃ a v, s.nvPending = .program a v) ∧
      (s.turn = .controller ∨ ∃ fate, s.turn = .platform fate))

/-- R44, R38, R39: an erase is put in flight only in erase-enabled mode, a program only in write-enabled mode, both only by a
ready controller; in read-only mode neither. -/
def Obligations.Protection : Prop :=
  ∀ (i : Instr) (s t : State), exec i s = .next t → t.nvPending ≠ s.nvPending →
    s.nvBusy = false ∧ (t.nvPending = .erase → s.nvMode = .eraseEnabled) ∧
    (∀ a v, t.nvPending = .program a v → s.nvMode = .writeEnabled ∧ s.params.storable a = true) ∧
    (s.nvMode = .readOnly → ∃ m, t.nvPending = .mode m)

/-- R27, R102: the restart line, once up, is cleared only by a reset. -/
def Obligations.RestartSticks : Prop :=
  ∀ s t : State, step s = .next t → s.restartReq = true → t.restartReq = true ∨ ∃ fate, s.turn = .platform fate

/-- R91, R96: the pin is read by POLL alone, the parameter ports by ENCODE alone. -/
def Obligations.InputsRead : Prop :=
  ∀ (i : Instr) (s : State) (p : Pins),
    (i ≠ .poll → i ≠ .encode →
      exec i { s with pins := p } = onNext (fun t => { t with pins := p }) (exec i s)) ∧
    (p.btnLevel = s.pins.btnLevel →
      exec .poll { s with pins := p } = onNext (fun t => { t with pins := p }) (exec .poll s)) ∧
    (p.pOffset = s.pins.pOffset → p.pMode = s.pins.pMode → p.pStatus = s.pins.pStatus →
        p.pSetpoint = s.pins.pSetpoint →
      exec .encode { s with pins := p } = onNext (fun t => { t with pins := p }) (exec .encode s))

/-- R10, R15, R17: `err` and `wstate` are read by no operation: what they hold changes nothing else. -/
def Obligations.ShadowsUnread : Prop :=
  ∀ (i : Instr) (s : State) (e : Err) (m : Mode),
    onNext (fun t => { t with err := .noError, wstate := .readOnly }) (exec i { s with err := e, wstate := m }) =
      onNext (fun t => { t with err := .noError, wstate := .readOnly }) (exec i s)

/-! ### A commit from end to end -/

/-- R84: from P_S1_ISSUE with `W = w` and the launch premise R128 (`wstate` as R72 has it there), whenever a run of the block
and the controller arrives at P_ACK: the target holds exactly `w`, every other word is erased, the controller is ready in
read-only mode, and the bus saw exactly the five transfers in order, each answered ready before the next. -/
def Obligations.WriterGuarantee : Prop :=
  ∀ (s t : State) (w : Word) (es : List BusEvent),
    LaunchPremise s → s.wstate = .readOnly → s.phase = .s1Issue → s.W = w → Runs s es t → t.phase = .ack →
    t.observeWord t.params.target = some w ∧ t.params = s.params ∧
    (∀ i < t.params.regionWords, i ≠ t.params.target → t.observeWord i = some t.params.erasedWord) ∧
    t.nvMode = .readOnly ∧ t.nvBusy = false ∧ t.wstate = .readOnly ∧
    es = [.transfer (.mode .eraseEnabled), .answeredReady, .transfer .erase, .answeredReady,
      .transfer (.mode .writeEnabled), .answeredReady, .transfer (.write s.params.configAddr w), .answeredReady,
      .transfer (.mode .readOnly), .answeredReady]

/-- R105 (a), R145, R144: under the launch premise, a press with parameters in range. NV_COMPLETES (R49, D26) enters as the
schedule `commitTurns k`, in which the controller completes operation `i` after `k i` not-ready answers (fewer than the limit):
14 steps of the block, one more for each not-ready answer, and five of the controller take
the machine to its final state, the target holding the encoded word and every other word erased. -/
def Obligations.CommitSucceeds : Prop :=
  ∀ (s : State) (w : Word) (k : SeqStep → Nat) (c : Stimulus) (cs : List Stimulus) (rest : List Turn),
    LaunchPremise s → s.wstate = .readOnly → s.phase = .idle → s.latch = .armed → s.pins.btnLevel = .pressed →
    s.script = c :: cs → PortsEncodeTo c.pins w → upcoming s = .block :: (commitTurns k ++ rest) →
    (∀ j, WithinLimit s.params (k j)) →
    ((Turn.block :: commitTurns k).filter (fun x => decide (x = Turn.block))).length = 14 + totalSpins k ∧
    ∃ t, run (19 + totalSpins k) s = .next t ∧ Final t ∧ t.W = w ∧ t.err = .noError ∧
      t.observeWord t.params.target = some w ∧
      (∀ i < t.params.regionWords, i ≠ t.params.target → t.observeWord i = some t.params.erasedWord) ∧
      t.nvMode = .readOnly ∧ t.nvBusy = false ∧ t.params = s.params

/-- R105 (b), R98, R145: a press with a parameter out of range is back in P_IDLE after two steps of the block, with the
latch still latched, no transfer, and `W`, the controller and the region unchanged. -/
def Obligations.OverflowReturns : Prop :=
  ∀ (s : State) (f : Field) (c : Stimulus) (cs : List Stimulus) (rest : List Turn),
    s.params.legal = true → s.phase = .idle → s.latch = .armed → s.pins.btnLevel = .pressed → s.script = c :: cs →
    encodeRecord c.pins.pOffset c.pins.pMode c.pins.pStatus c.pins.pSetpoint = .error f →
    upcoming s = .block :: .block :: rest →
    ∃ t u, run 1 s = .next t ∧ NoTransfer t ∧ run 2 s = .next u ∧ NoTransfer u ∧ u.phase = .idle ∧ u.latch = .latched ∧
      u.err = .fieldOverflow f ∧ u.W = s.W ∧ u.restartReq = s.restartReq ∧ SameController s u

/-- R49, R145, R144, D26: a commit that ENCODE has accepted comes to an end, in a run of the block and the controller in which
an enabled step of the block is eventually taken. With a poll limit it ends in P_RESTART with the line raised or in P_FAULT,
whatever the controller does; without one, NV_COMPLETES is the premise under which it reaches P_RESTART with the line
raised. -/
def Obligations.CommitTerminates : Prop :=
  ∀ s : State, s.params.legal = true → CommitInv s → s.phase ∉ [.idle, .encode, .fault] → Undisturbed s → BlockFair s →
    (s.params.pollLimit ≠ none → ∃ n t, run n s = .next t ∧ (Final t ∨ Faulted t)) ∧
    (s.params.pollLimit = none → s.params.nvCompletes = true → NvCompletes s → ∃ n t, run n s = .next t ∧ Final t)

/-! ### The block's port -/

/-- R22, R57: the block's four wires to the controller decode to the bus operation they present, in every state. -/
def Obligations.PortDecodes : Prop :=
  ∀ s : State, decode s.busWires = .ok s.bus.operation

/-- R57, R22, R32: the block's port after any step. `nv_addr` is the constant `CONFIG_ADDR`; `nv_cmd` carries the command of
the issue the block has just executed, and is 0 after every other step, whoever took it. -/
def Obligations.PortCommands : Prop :=
  ∀ s t : State, step s = .next t →
    t.nvAddr = s.params.configAddr ∧
    t.nvCmd = (if s.turn = .block then
      (match s.phase with
        | .s1Issue => 1 | .s2Issue => 2 | .s3Issue => 1 | .s4Issue => 3 | .s5Issue => 1
        | .idle | .encode | .s1Wait | .s2Wait | .s3Wait | .s4Wait | .s5Wait | .ack | .restart | .fault => 0)
      else 0)
end

