-- ==== Sys2Proof/Laws/Codes.lean ====
section
/-! SUPPORT. The codes of R55 and R56 read back, and the operation table of R64. -/

namespace Sys2Proof

@[simp] theorem Mode.ofCode?_code (m : Mode) : Mode.ofCode? m.code = some m := by cases m <;> rfl

@[simp] theorem Phase.ofCode?_code (p : Phase) : Phase.ofCode? p.code = some p := by cases p <;> rfl

/-- R55, R64: the phase code decodes to the operation of the phase. -/
@[simp] theorem decode_phase_code (p : Phase) : decode (.phase p.code) = .ok p.operation := by
  simp [decode, decodePhase]

@[simp] theorem Phase.operation_phase? (p : Phase) : p.operation.phase? = some p := by cases p <;> rfl

/-- R57: a command decodes to its operation whatever the wires carry that it does not use. -/
theorem decode_encodeOn_busOp (modeVal : BitVec 2) (addr wdata : Word) (op : BusOp) :
    decode (encodeOn modeVal addr wdata op.operation) = .ok op.operation := by
  cases op with
  | mode m => cases m <;> rfl
  | idle | erase | write _ _ => rfl

/-- R22, R57: the block's port carries its command's encoding, with whatever it carries on the other wires. -/
theorem Machine.State.busWires_eq (s : Machine.State) :
    s.busWires = encodeOn s.nvModeVal s.nvAddr s.nvWdata s.bus.operation := by
  unfold State.busWires State.nvCmd State.nvModeVal State.nvAddr State.nvWdata
  cases s.bus <;> rfl

@[simp] theorem BusOp.operation_busOp? (op : BusOp) : op.operation.busOp? = some op := by cases op <;> rfl

@[simp] theorem BusOp.operation_phase? (op : BusOp) : op.operation.phase? = none := by cases op <;> rfl

end Sys2Proof
end

