-- ==== Sys2Proof/Laws/Memory.lean ====
section
/-! SUPPORT. Memory: read after write, writes elsewhere, words, erase, forgetting, and that every operation keeps the canonical form. -/

namespace Sys2Proof.Machine

/-! ### Bytes -/

@[simp] theorem Memory.read_write_same (m : Memory) (a : Nat) (v : Byte) : Memory.read (Memory.write m a v) a = some v := by
  induction m with
  | nil => simp [Memory.write, Memory.read]
  | cons c m ih =>
    obtain ⟨k, b⟩ := c
    unfold Memory.write
    split
    · simp [Memory.read]
    · split
      · simp [Memory.read]
      · simp [Memory.read, ih, Ne.symm ‹_›]

theorem Memory.read_write_other (m : Memory) {a b : Nat} (v : Byte) (h : b ≠ a) :
    Memory.read (Memory.write m a v) b = Memory.read m b := by
  induction m with
  | nil => simp [Memory.write, Memory.read, Ne.symm h]
  | cons c m ih =>
    obtain ⟨k, x⟩ := c
    unfold Memory.write
    split
    · simp [Memory.read, Ne.symm h]
    · split
      · rename_i _ hk
        subst hk
        simp [Memory.read, Ne.symm h]
      · simp [Memory.read, ih]

theorem Memory.mem_write {m : Memory} {a : Nat} {v : Byte} {c : Host.Cell} (h : c ∈ Memory.write m a v) :
    c = (a, v) ∨ c ∈ m := by
  induction m with
  | nil => simpa [Memory.write] using h
  | cons d m ih =>
    obtain ⟨k, x⟩ := d
    unfold Memory.write at h
    split at h
    · simpa using h
    · split at h
      · rcases List.mem_cons.1 h with h | h
        · exact .inl h
        · exact .inr (List.mem_cons_of_mem _ h)
      · rcases List.mem_cons.1 h with h | h
        · exact .inr (h ▸ List.mem_cons_self ..)
        · exact (ih h).imp id (List.mem_cons_of_mem _)

theorem Memory.wf_write {m : Memory} (a : Nat) (v : Byte) (h : Memory.wf m) : Memory.wf (Memory.write m a v) := by
  induction m with
  | nil => simp [Memory.write, Memory.wf]
  | cons d m ih =>
    obtain ⟨k, x⟩ := d
    obtain ⟨hk, hm⟩ := List.pairwise_cons.1 h
    unfold Memory.write
    split
    · rename_i hlt
      refine List.pairwise_cons.2 ⟨fun c hc => ?_, h⟩
      rcases List.mem_cons.1 hc with rfl | hc
      · exact hlt
      · exact lt_trans hlt (hk c hc)
    · split
      · rename_i heq
        subst heq
        exact List.pairwise_cons.2 ⟨hk, hm⟩
      · refine List.pairwise_cons.2 ⟨fun c hc => ?_, ih hm⟩
        rcases Memory.mem_write hc with rfl | hc
        · show k < a
          omega
        · exact hk c hc

/-! ### Forgetting -/

theorem Memory.wf_forget {m : Memory} (lo hi : Nat) (h : Memory.wf m) : Memory.wf (Memory.forget m lo hi) :=
  List.Pairwise.filter _ h

theorem Memory.mem_forget {m : Memory} {lo hi : Nat} {c : Host.Cell} (h : c ∈ Memory.forget m lo hi) : c ∈ m :=
  (List.mem_filter.1 h).1

theorem Memory.read_forget_outside (m : Memory) {lo hi a : Nat} (h : a < lo ∨ hi ≤ a) :
    Memory.read (Memory.forget m lo hi) a = Memory.read m a := by
  induction m with
  | nil => rfl
  | cons d m ih =>
    obtain ⟨k, x⟩ := d
    unfold Memory.forget at ih ⊢
    rw [List.filter_cons]
    split
    · simp [Memory.read, ih]
    · rename_i hk
      have : k ≠ a := by
        rintro rfl
        simp at hk
        omega
      simp [Memory.read, ih, this]

theorem Memory.read_forget_inside (m : Memory) {lo hi a : Nat} (h : lo ≤ a) (h' : a < hi) :
    Memory.read (Memory.forget m lo hi) a = none := by
  induction m with
  | nil => rfl
  | cons d m ih =>
    obtain ⟨k, x⟩ := d
    unfold Memory.forget at ih ⊢
    rw [List.filter_cons]
    split
    · rename_i hk
      have : k ≠ a := by
        rintro rfl
        simp at hk
        omega
      simp [Memory.read, ih, this]
    · exact ih

/-! ### Words -/

/-- A word is its four bytes (R34). -/
@[simp] theorem wordOf_byteOf (w : Word) : wordOf (byteOf w 0) (byteOf w 1) (byteOf w 2) (byteOf w 3) = w := by
  unfold wordOf byteOf
  ext i hi
  simp only [BitVec.getElem_append, BitVec.getElem_extractLsb']
  split
  · simp [BitVec.getLsbD_eq_getElem hi]
  · split
    · rw [BitVec.getLsbD_eq_getElem (by omega)]
      congr 1
      omega
    · split
      · rw [BitVec.getLsbD_eq_getElem (by omega)]
        congr 1
        omega
      · rw [BitVec.getLsbD_eq_getElem (by omega)]
        congr 1
        omega

theorem Memory.read_writeWord_byte (m : Memory) (a : Nat) (w : Word) {j : Nat} (hj : j < 4) :
    Memory.read (Memory.writeWord m a w) (a + j) = some (byteOf w j) := by
  unfold Memory.writeWord
  interval_cases j
  · rw [Memory.read_write_other _ _ (by omega), Memory.read_write_other _ _ (by omega),
      Memory.read_write_other _ _ (by omega)]
    simp
  · rw [Memory.read_write_other _ _ (by omega), Memory.read_write_other _ _ (by omega)]
    simp
  · rw [Memory.read_write_other _ _ (by omega)]
    simp
  · simp

theorem Memory.read_writeWord_other (m : Memory) {a b : Nat} (w : Word) (h : b < a ∨ a + 4 ≤ b) :
    Memory.read (Memory.writeWord m a w) b = Memory.read m b := by
  unfold Memory.writeWord
  rw [Memory.read_write_other _ _ (by omega), Memory.read_write_other _ _ (by omega),
    Memory.read_write_other _ _ (by omega), Memory.read_write_other _ _ (by omega)]

@[simp] theorem Memory.readWord_writeWord_same (m : Memory) (a : Nat) (w : Word) :
    Memory.readWord (Memory.writeWord m a w) a = some w := by
  have h0 := Memory.read_writeWord_byte m a w (j := 0) (by omega)
  have h1 := Memory.read_writeWord_byte m a w (j := 1) (by omega)
  have h2 := Memory.read_writeWord_byte m a w (j := 2) (by omega)
  have h3 := Memory.read_writeWord_byte m a w (j := 3) (by omega)
  rw [Nat.add_zero] at h0
  simp [Memory.readWord, h0, h1, h2, h3]

/-- A word whose bytes are read alike reads alike. -/
theorem Memory.readWord_congr {m m' : Memory} {a : Nat}
    (h : ∀ j < 4, Memory.read m' (a + j) = Memory.read m (a + j)) : Memory.readWord m' a = Memory.readWord m a := by
  have h0 := h 0 (by omega)
  rw [Nat.add_zero] at h0
  simp [Memory.readWord, h0, h 1 (by omega), h 2 (by omega), h 3 (by omega)]

theorem Memory.readWord_writeWord_other (m : Memory) {a b : Nat} (w : Word) (h : b + 4 ≤ a ∨ a + 4 ≤ b) :
    Memory.readWord (Memory.writeWord m a w) b = Memory.readWord m b :=
  Memory.readWord_congr fun _ _ => Memory.read_writeWord_other m w (by omega)

theorem Memory.wf_writeWord {m : Memory} (a : Nat) (w : Word) (h : Memory.wf m) : Memory.wf (Memory.writeWord m a w) :=
  Memory.wf_write _ _ (Memory.wf_write _ _ (Memory.wf_write _ _ (Memory.wf_write _ _ h)))

theorem Memory.mem_writeWord {m : Memory} {a : Nat} {w : Word} {c : Host.Cell} (h : c ∈ Memory.writeWord m a w) :
    (a ≤ c.1 ∧ c.1 < a + 4) ∨ c ∈ m := by
  unfold Memory.writeWord at h
  rcases Memory.mem_write h with rfl | h
  · left; constructor <;> simp
  rcases Memory.mem_write h with rfl | h
  · left; constructor <;> simp
  rcases Memory.mem_write h with rfl | h
  · left; constructor <;> simp
  rcases Memory.mem_write h with rfl | h
  · left; constructor <;> simp
  · exact .inr h

/-! ### The whole-region erase -/

theorem Memory.readWord_eraseWords (m : Memory) (base : Nat) (v : Word) {n i : Nat} (h : i < n) :
    Memory.readWord (Memory.eraseWords m base v n) (base + 4 * i) = some v := by
  induction n with
  | zero => omega
  | succ n ih =>
    by_cases hi : i = n
    · subst hi
      exact Memory.readWord_writeWord_same ..
    · rw [Memory.eraseWords, Memory.readWord_writeWord_other _ _ (by omega)]
      exact ih (by omega)

theorem Memory.read_eraseWords_outside (m : Memory) {base : Nat} (v : Word) {n a : Nat}
    (h : a < base ∨ base + 4 * n ≤ a) : Memory.read (Memory.eraseWords m base v n) a = Memory.read m a := by
  induction n with
  | zero => rfl
  | succ n ih =>
    rw [Memory.eraseWords, Memory.read_writeWord_other _ _ (by omega)]
    exact ih (by omega)

theorem Memory.wf_eraseWords {m : Memory} (base : Nat) (v : Word) (n : Nat) (h : Memory.wf m) :
    Memory.wf (Memory.eraseWords m base v n) := by
  induction n with
  | zero => exact h
  | succ n ih => exact Memory.wf_writeWord _ _ ih

theorem Memory.mem_eraseWords {m : Memory} {base : Nat} {v : Word} {n : Nat} {c : Host.Cell}
    (h : c ∈ Memory.eraseWords m base v n) : (base ≤ c.1 ∧ c.1 < base + 4 * n) ∨ c ∈ m := by
  induction n with
  | zero => exact .inr h
  | succ n ih =>
    rcases Memory.mem_writeWord h with h | h
    · left
      omega
    · exact (ih h).imp (fun h => by omega) id

/-! ### Programming one word -/

theorem wf_programWord {m : Memory} (p : Params) (a v : Word) (h : Memory.wf m) : Memory.wf (programWord p a v m) := by
  unfold programWord
  split
  · exact Memory.wf_writeWord _ _ h
  · exact Memory.wf_forget _ _ h

theorem mem_programWord {m : Memory} {p : Params} {a v : Word} {c : Host.Cell} (h : c ∈ programWord p a v m) :
    (p.programAddr a ≤ c.1 ∧ c.1 < p.programAddr a + 4) ∨ c ∈ m := by
  unfold programWord at h
  split at h
  · exact Memory.mem_writeWord h
  · exact .inr (Memory.mem_forget h)

theorem read_programWord_other (p : Params) (a v : Word) (m : Memory) {b : Nat}
    (h : b < p.programAddr a ∨ p.programAddr a + 4 ≤ b) : Memory.read (programWord p a v m) b = Memory.read m b := by
  unfold programWord
  split
  · exact Memory.read_writeWord_other _ _ h
  · exact Memory.read_forget_outside _ h

end Sys2Proof.Machine
end

