-- ==== Sys2Proof/Laws/State.lean ====
section
/-! SUPPORT. One lemma per field per plain update of State, so that no later proof unfolds a record update. -/

namespace Sys2Proof.Machine

/-! ### `quiet` -/

@[simp] theorem State.quiet_latch (s : State) : (s.quiet).latch = s.latch := rfl
@[simp] theorem State.quiet_phase (s : State) : (s.quiet).phase = s.phase := rfl
@[simp] theorem State.quiet_wstate (s : State) : (s.quiet).wstate = s.wstate := rfl
@[simp] theorem State.quiet_W (s : State) : (s.quiet).W = s.W := rfl
@[simp] theorem State.quiet_pollcnt (s : State) : (s.quiet).pollcnt = s.pollcnt := rfl
@[simp] theorem State.quiet_err (s : State) : (s.quiet).err = s.err := rfl
@[simp] theorem State.quiet_restartReq (s : State) : (s.quiet).restartReq = s.restartReq := rfl
@[simp] theorem State.quiet_nvMode (s : State) : (s.quiet).nvMode = s.nvMode := rfl
@[simp] theorem State.quiet_nvBusy (s : State) : (s.quiet).nvBusy = s.nvBusy := rfl
@[simp] theorem State.quiet_nvPending (s : State) : (s.quiet).nvPending = s.nvPending := rfl
@[simp] theorem State.quiet_mem (s : State) : (s.quiet).mem = s.mem := rfl
@[simp] theorem State.quiet_bus (s : State) : (s.quiet).bus = .idle := rfl
@[simp] theorem State.quiet_diag (s : State) : (s.quiet).diag = .none := rfl
@[simp] theorem State.quiet_pins (s : State) : (s.quiet).pins = s.pins := rfl
@[simp] theorem State.quiet_turn (s : State) : (s.quiet).turn = s.turn := rfl
@[simp] theorem State.quiet_script (s : State) : (s.quiet).script = s.script := rfl
@[simp] theorem State.quiet_draws (s : State) : (s.quiet).draws = s.draws := rfl
@[simp] theorem State.quiet_params (s : State) : (s.quiet).params = s.params := rfl

/-! ### `accept` -/

@[simp] theorem State.accept_latch (s : State) (op : BusOp) (p : Pending) : (s.accept op p).latch = s.latch := rfl
@[simp] theorem State.accept_phase (s : State) (op : BusOp) (p : Pending) : (s.accept op p).phase = s.phase := rfl
@[simp] theorem State.accept_wstate (s : State) (op : BusOp) (p : Pending) : (s.accept op p).wstate = s.wstate := rfl
@[simp] theorem State.accept_W (s : State) (op : BusOp) (p : Pending) : (s.accept op p).W = s.W := rfl
@[simp] theorem State.accept_pollcnt (s : State) (op : BusOp) (p : Pending) : (s.accept op p).pollcnt = s.pollcnt := rfl
@[simp] theorem State.accept_err (s : State) (op : BusOp) (p : Pending) : (s.accept op p).err = s.err := rfl
@[simp] theorem State.accept_restartReq (s : State) (op : BusOp) (p : Pending) : (s.accept op p).restartReq = s.restartReq := rfl
@[simp] theorem State.accept_nvMode (s : State) (op : BusOp) (p : Pending) : (s.accept op p).nvMode = s.nvMode := rfl
@[simp] theorem State.accept_nvBusy (s : State) (op : BusOp) (p : Pending) : (s.accept op p).nvBusy = true := rfl
@[simp] theorem State.accept_nvPending (s : State) (op : BusOp) (p : Pending) : (s.accept op p).nvPending = p := rfl
@[simp] theorem State.accept_mem (s : State) (op : BusOp) (p : Pending) : (s.accept op p).mem = s.mem := rfl
@[simp] theorem State.accept_bus (s : State) (op : BusOp) (p : Pending) : (s.accept op p).bus = op := rfl
@[simp] theorem State.accept_diag (s : State) (op : BusOp) (p : Pending) : (s.accept op p).diag = s.diag := rfl
@[simp] theorem State.accept_pins (s : State) (op : BusOp) (p : Pending) : (s.accept op p).pins = s.pins := rfl
@[simp] theorem State.accept_turn (s : State) (op : BusOp) (p : Pending) : (s.accept op p).turn = s.turn := rfl
@[simp] theorem State.accept_script (s : State) (op : BusOp) (p : Pending) : (s.accept op p).script = s.script := rfl
@[simp] theorem State.accept_draws (s : State) (op : BusOp) (p : Pending) : (s.accept op p).draws = s.draws := rfl
@[simp] theorem State.accept_params (s : State) (op : BusOp) (p : Pending) : (s.accept op p).params = s.params := rfl

/-! ### `raise` -/

@[simp] theorem State.raise_latch (s : State) (e : Err) (l : Phase) : (s.raise e l).latch = s.latch := rfl
@[simp] theorem State.raise_phase (s : State) (e : Err) (l : Phase) : (s.raise e l).phase = l := rfl
@[simp] theorem State.raise_wstate (s : State) (e : Err) (l : Phase) : (s.raise e l).wstate = s.wstate := rfl
@[simp] theorem State.raise_W (s : State) (e : Err) (l : Phase) : (s.raise e l).W = s.W := rfl
@[simp] theorem State.raise_pollcnt (s : State) (e : Err) (l : Phase) : (s.raise e l).pollcnt = s.pollcnt := rfl
@[simp] theorem State.raise_err (s : State) (e : Err) (l : Phase) : (s.raise e l).err = e := rfl
@[simp] theorem State.raise_restartReq (s : State) (e : Err) (l : Phase) : (s.raise e l).restartReq = s.restartReq := rfl
@[simp] theorem State.raise_nvMode (s : State) (e : Err) (l : Phase) : (s.raise e l).nvMode = s.nvMode := rfl
@[simp] theorem State.raise_nvBusy (s : State) (e : Err) (l : Phase) : (s.raise e l).nvBusy = s.nvBusy := rfl
@[simp] theorem State.raise_nvPending (s : State) (e : Err) (l : Phase) : (s.raise e l).nvPending = s.nvPending := rfl
@[simp] theorem State.raise_mem (s : State) (e : Err) (l : Phase) : (s.raise e l).mem = s.mem := rfl
@[simp] theorem State.raise_bus (s : State) (e : Err) (l : Phase) : (s.raise e l).bus = s.bus := rfl
@[simp] theorem State.raise_diag (s : State) (e : Err) (l : Phase) : (s.raise e l).diag = .err e := rfl
@[simp] theorem State.raise_pins (s : State) (e : Err) (l : Phase) : (s.raise e l).pins = s.pins := rfl
@[simp] theorem State.raise_turn (s : State) (e : Err) (l : Phase) : (s.raise e l).turn = s.turn := rfl
@[simp] theorem State.raise_script (s : State) (e : Err) (l : Phase) : (s.raise e l).script = s.script := rfl
@[simp] theorem State.raise_draws (s : State) (e : Err) (l : Phase) : (s.raise e l).draws = s.draws := rfl
@[simp] theorem State.raise_params (s : State) (e : Err) (l : Phase) : (s.raise e l).params = s.params := rfl

/-! ### `enterWait` -/

@[simp] theorem State.enterWait_latch (s : State) (k : SeqStep) : (s.enterWait k).latch = s.latch := rfl
@[simp] theorem State.enterWait_phase (s : State) (k : SeqStep) : (s.enterWait k).phase = k.waitPhase := rfl
@[simp] theorem State.enterWait_wstate (s : State) (k : SeqStep) : (s.enterWait k).wstate = s.wstate := rfl
@[simp] theorem State.enterWait_W (s : State) (k : SeqStep) : (s.enterWait k).W = s.W := rfl
@[simp] theorem State.enterWait_pollcnt (s : State) (k : SeqStep) : (s.enterWait k).pollcnt = 0 := rfl
@[simp] theorem State.enterWait_err (s : State) (k : SeqStep) : (s.enterWait k).err = s.err := rfl
@[simp] theorem State.enterWait_restartReq (s : State) (k : SeqStep) : (s.enterWait k).restartReq = s.restartReq := rfl
@[simp] theorem State.enterWait_nvMode (s : State) (k : SeqStep) : (s.enterWait k).nvMode = s.nvMode := rfl
@[simp] theorem State.enterWait_nvBusy (s : State) (k : SeqStep) : (s.enterWait k).nvBusy = s.nvBusy := rfl
@[simp] theorem State.enterWait_nvPending (s : State) (k : SeqStep) : (s.enterWait k).nvPending = s.nvPending := rfl
@[simp] theorem State.enterWait_mem (s : State) (k : SeqStep) : (s.enterWait k).mem = s.mem := rfl
@[simp] theorem State.enterWait_bus (s : State) (k : SeqStep) : (s.enterWait k).bus = s.bus := rfl
@[simp] theorem State.enterWait_diag (s : State) (k : SeqStep) : (s.enterWait k).diag = s.diag := rfl
@[simp] theorem State.enterWait_pins (s : State) (k : SeqStep) : (s.enterWait k).pins = s.pins := rfl
@[simp] theorem State.enterWait_turn (s : State) (k : SeqStep) : (s.enterWait k).turn = s.turn := rfl
@[simp] theorem State.enterWait_script (s : State) (k : SeqStep) : (s.enterWait k).script = s.script := rfl
@[simp] theorem State.enterWait_draws (s : State) (k : SeqStep) : (s.enterWait k).draws = s.draws := rfl
@[simp] theorem State.enterWait_params (s : State) (k : SeqStep) : (s.enterWait k).params = s.params := rfl

/-! ### `commitWord` -/

@[simp] theorem State.commitWord_latch (s : State) (w : Word) : (s.commitWord w).latch = s.latch := rfl
@[simp] theorem State.commitWord_phase (s : State) (w : Word) : (s.commitWord w).phase = .s1Issue := rfl
@[simp] theorem State.commitWord_wstate (s : State) (w : Word) : (s.commitWord w).wstate = s.wstate := rfl
@[simp] theorem State.commitWord_W (s : State) (w : Word) : (s.commitWord w).W = w := rfl
@[simp] theorem State.commitWord_pollcnt (s : State) (w : Word) : (s.commitWord w).pollcnt = s.pollcnt := rfl
@[simp] theorem State.commitWord_err (s : State) (w : Word) : (s.commitWord w).err = .noError := rfl
@[simp] theorem State.commitWord_restartReq (s : State) (w : Word) : (s.commitWord w).restartReq = s.restartReq := rfl
@[simp] theorem State.commitWord_nvMode (s : State) (w : Word) : (s.commitWord w).nvMode = s.nvMode := rfl
@[simp] theorem State.commitWord_nvBusy (s : State) (w : Word) : (s.commitWord w).nvBusy = s.nvBusy := rfl
@[simp] theorem State.commitWord_nvPending (s : State) (w : Word) : (s.commitWord w).nvPending = s.nvPending := rfl
@[simp] theorem State.commitWord_mem (s : State) (w : Word) : (s.commitWord w).mem = s.mem := rfl
@[simp] theorem State.commitWord_bus (s : State) (w : Word) : (s.commitWord w).bus = s.bus := rfl
@[simp] theorem State.commitWord_diag (s : State) (w : Word) : (s.commitWord w).diag = .word w := rfl
@[simp] theorem State.commitWord_pins (s : State) (w : Word) : (s.commitWord w).pins = s.pins := rfl
@[simp] theorem State.commitWord_turn (s : State) (w : Word) : (s.commitWord w).turn = s.turn := rfl
@[simp] theorem State.commitWord_script (s : State) (w : Word) : (s.commitWord w).script = s.script := rfl
@[simp] theorem State.commitWord_draws (s : State) (w : Word) : (s.commitWord w).draws = s.draws := rfl
@[simp] theorem State.commitWord_params (s : State) (w : Word) : (s.commitWord w).params = s.params := rfl

/-! ### `resetBlock` -/

@[simp] theorem State.resetBlock_latch (s : State) : (s.resetBlock).latch = .armed := rfl
@[simp] theorem State.resetBlock_phase (s : State) : (s.resetBlock).phase = .idle := rfl
@[simp] theorem State.resetBlock_wstate (s : State) : (s.resetBlock).wstate = .readOnly := rfl
@[simp] theorem State.resetBlock_W (s : State) : (s.resetBlock).W = Config.freeW s.draws := rfl
@[simp] theorem State.resetBlock_pollcnt (s : State) : (s.resetBlock).pollcnt = 0 := rfl
@[simp] theorem State.resetBlock_err (s : State) : (s.resetBlock).err = .noError := rfl
@[simp] theorem State.resetBlock_restartReq (s : State) : (s.resetBlock).restartReq = false := rfl
@[simp] theorem State.resetBlock_nvMode (s : State) : (s.resetBlock).nvMode = s.nvMode := rfl
@[simp] theorem State.resetBlock_nvBusy (s : State) : (s.resetBlock).nvBusy = s.nvBusy := rfl
@[simp] theorem State.resetBlock_nvPending (s : State) : (s.resetBlock).nvPending = s.nvPending := rfl
@[simp] theorem State.resetBlock_mem (s : State) : (s.resetBlock).mem = s.mem := rfl
@[simp] theorem State.resetBlock_bus (s : State) : (s.resetBlock).bus = .idle := rfl
@[simp] theorem State.resetBlock_diag (s : State) : (s.resetBlock).diag = .none := rfl
@[simp] theorem State.resetBlock_pins (s : State) : (s.resetBlock).pins = s.pins := rfl
@[simp] theorem State.resetBlock_turn (s : State) : (s.resetBlock).turn = s.turn := rfl
@[simp] theorem State.resetBlock_script (s : State) : (s.resetBlock).script = s.script := rfl
@[simp] theorem State.resetBlock_draws (s : State) : (s.resetBlock).draws = s.draws := rfl
@[simp] theorem State.resetBlock_params (s : State) : (s.resetBlock).params = s.params := rfl

/-! ### `waitSpin` -/

@[simp] theorem State.waitSpin_latch (s : State) (k : SeqStep) : (s.waitSpin k).latch = s.latch := rfl
@[simp] theorem State.waitSpin_phase (s : State) (k : SeqStep) : (s.waitSpin k).phase = k.waitPhase := rfl
@[simp] theorem State.waitSpin_wstate (s : State) (k : SeqStep) : (s.waitSpin k).wstate = s.wstate := rfl
@[simp] theorem State.waitSpin_W (s : State) (k : SeqStep) : (s.waitSpin k).W = s.W := rfl
@[simp] theorem State.waitSpin_pollcnt (s : State) (k : SeqStep) : (s.waitSpin k).pollcnt = s.pollcntAfterBusy := rfl
@[simp] theorem State.waitSpin_err (s : State) (k : SeqStep) : (s.waitSpin k).err = s.err := rfl
@[simp] theorem State.waitSpin_restartReq (s : State) (k : SeqStep) : (s.waitSpin k).restartReq = s.restartReq := rfl
@[simp] theorem State.waitSpin_nvMode (s : State) (k : SeqStep) : (s.waitSpin k).nvMode = s.nvMode := rfl
@[simp] theorem State.waitSpin_nvBusy (s : State) (k : SeqStep) : (s.waitSpin k).nvBusy = s.nvBusy := rfl
@[simp] theorem State.waitSpin_nvPending (s : State) (k : SeqStep) : (s.waitSpin k).nvPending = s.nvPending := rfl
@[simp] theorem State.waitSpin_mem (s : State) (k : SeqStep) : (s.waitSpin k).mem = s.mem := rfl
@[simp] theorem State.waitSpin_bus (s : State) (k : SeqStep) : (s.waitSpin k).bus = .idle := rfl
@[simp] theorem State.waitSpin_diag (s : State) (k : SeqStep) : (s.waitSpin k).diag = .none := rfl
@[simp] theorem State.waitSpin_pins (s : State) (k : SeqStep) : (s.waitSpin k).pins = s.pins := rfl
@[simp] theorem State.waitSpin_turn (s : State) (k : SeqStep) : (s.waitSpin k).turn = s.turn := rfl
@[simp] theorem State.waitSpin_script (s : State) (k : SeqStep) : (s.waitSpin k).script = s.script := rfl
@[simp] theorem State.waitSpin_draws (s : State) (k : SeqStep) : (s.waitSpin k).draws = s.draws := rfl
@[simp] theorem State.waitSpin_params (s : State) (k : SeqStep) : (s.waitSpin k).params = s.params := rfl

/-! ### `waitTimeout` -/

@[simp] theorem State.waitTimeout_latch (s : State) (k : SeqStep) : (s.waitTimeout k).latch = s.latch := rfl
@[simp] theorem State.waitTimeout_phase (s : State) (k : SeqStep) : (s.waitTimeout k).phase = .fault := rfl
@[simp] theorem State.waitTimeout_wstate (s : State) (k : SeqStep) : (s.waitTimeout k).wstate = s.wstate := rfl
@[simp] theorem State.waitTimeout_W (s : State) (k : SeqStep) : (s.waitTimeout k).W = s.W := rfl
@[simp] theorem State.waitTimeout_pollcnt (s : State) (k : SeqStep) : (s.waitTimeout k).pollcnt = s.pollcntAfterBusy := rfl
@[simp] theorem State.waitTimeout_err (s : State) (k : SeqStep) : (s.waitTimeout k).err = .hardwareTimeout k := rfl
@[simp] theorem State.waitTimeout_restartReq (s : State) (k : SeqStep) : (s.waitTimeout k).restartReq = s.restartReq := rfl
@[simp] theorem State.waitTimeout_nvMode (s : State) (k : SeqStep) : (s.waitTimeout k).nvMode = s.nvMode := rfl
@[simp] theorem State.waitTimeout_nvBusy (s : State) (k : SeqStep) : (s.waitTimeout k).nvBusy = s.nvBusy := rfl
@[simp] theorem State.waitTimeout_nvPending (s : State) (k : SeqStep) : (s.waitTimeout k).nvPending = s.nvPending := rfl
@[simp] theorem State.waitTimeout_mem (s : State) (k : SeqStep) : (s.waitTimeout k).mem = s.mem := rfl
@[simp] theorem State.waitTimeout_bus (s : State) (k : SeqStep) : (s.waitTimeout k).bus = .idle := rfl
@[simp] theorem State.waitTimeout_diag (s : State) (k : SeqStep) : (s.waitTimeout k).diag = .err (.hardwareTimeout k) := rfl
@[simp] theorem State.waitTimeout_pins (s : State) (k : SeqStep) : (s.waitTimeout k).pins = s.pins := rfl
@[simp] theorem State.waitTimeout_turn (s : State) (k : SeqStep) : (s.waitTimeout k).turn = s.turn := rfl
@[simp] theorem State.waitTimeout_script (s : State) (k : SeqStep) : (s.waitTimeout k).script = s.script := rfl
@[simp] theorem State.waitTimeout_draws (s : State) (k : SeqStep) : (s.waitTimeout k).draws = s.draws := rfl
@[simp] theorem State.waitTimeout_params (s : State) (k : SeqStep) : (s.waitTimeout k).params = s.params := rfl

/-! ### `confirm` and `waitReady` -/

/-- What `wstate` becomes when step `k` is confirmed (R74, R76, R78, R80, R82). -/
def confirmed (k : SeqStep) (m : Mode) : Mode :=
  match k with
  | .s1 => .eraseEnabled
  | .s2 => m
  | .s3 => .writeEnabled
  | .s4 => m
  | .s5 => .readOnly

@[simp] theorem State.confirm_latch (s : State) (k : SeqStep) : (s.confirm k).latch = s.latch := by cases k <;> rfl
@[simp] theorem State.confirm_phase (s : State) (k : SeqStep) : (s.confirm k).phase = s.phase := by cases k <;> rfl
@[simp] theorem State.confirm_wstate (s : State) (k : SeqStep) : (s.confirm k).wstate = confirmed k s.wstate := by cases k <;> rfl
@[simp] theorem State.confirm_W (s : State) (k : SeqStep) : (s.confirm k).W = s.W := by cases k <;> rfl
@[simp] theorem State.confirm_pollcnt (s : State) (k : SeqStep) : (s.confirm k).pollcnt = s.pollcnt := by cases k <;> rfl
@[simp] theorem State.confirm_err (s : State) (k : SeqStep) : (s.confirm k).err = s.err := by cases k <;> rfl
@[simp] theorem State.confirm_restartReq (s : State) (k : SeqStep) : (s.confirm k).restartReq = s.restartReq := by cases k <;> rfl
@[simp] theorem State.confirm_nvMode (s : State) (k : SeqStep) : (s.confirm k).nvMode = s.nvMode := by cases k <;> rfl
@[simp] theorem State.confirm_nvBusy (s : State) (k : SeqStep) : (s.confirm k).nvBusy = s.nvBusy := by cases k <;> rfl
@[simp] theorem State.confirm_nvPending (s : State) (k : SeqStep) : (s.confirm k).nvPending = s.nvPending := by cases k <;> rfl
@[simp] theorem State.confirm_mem (s : State) (k : SeqStep) : (s.confirm k).mem = s.mem := by cases k <;> rfl
@[simp] theorem State.confirm_bus (s : State) (k : SeqStep) : (s.confirm k).bus = s.bus := by cases k <;> rfl
@[simp] theorem State.confirm_diag (s : State) (k : SeqStep) : (s.confirm k).diag = s.diag := by cases k <;> rfl
@[simp] theorem State.confirm_pins (s : State) (k : SeqStep) : (s.confirm k).pins = s.pins := by cases k <;> rfl
@[simp] theorem State.confirm_turn (s : State) (k : SeqStep) : (s.confirm k).turn = s.turn := by cases k <;> rfl
@[simp] theorem State.confirm_script (s : State) (k : SeqStep) : (s.confirm k).script = s.script := by cases k <;> rfl
@[simp] theorem State.confirm_draws (s : State) (k : SeqStep) : (s.confirm k).draws = s.draws := by cases k <;> rfl
@[simp] theorem State.confirm_params (s : State) (k : SeqStep) : (s.confirm k).params = s.params := by cases k <;> rfl

@[simp] theorem State.waitReady_latch (s : State) (k : SeqStep) : (s.waitReady k).latch = s.latch := by cases k <;> rfl
@[simp] theorem State.waitReady_phase (s : State) (k : SeqStep) : (s.waitReady k).phase = k.nextPhase := rfl
@[simp] theorem State.waitReady_wstate (s : State) (k : SeqStep) : (s.waitReady k).wstate = confirmed k s.wstate := by cases k <;> rfl
@[simp] theorem State.waitReady_W (s : State) (k : SeqStep) : (s.waitReady k).W = s.W := by cases k <;> rfl
@[simp] theorem State.waitReady_pollcnt (s : State) (k : SeqStep) : (s.waitReady k).pollcnt = 0 := rfl
@[simp] theorem State.waitReady_err (s : State) (k : SeqStep) : (s.waitReady k).err = s.err := by cases k <;> rfl
@[simp] theorem State.waitReady_restartReq (s : State) (k : SeqStep) : (s.waitReady k).restartReq = s.restartReq := by cases k <;> rfl
@[simp] theorem State.waitReady_nvMode (s : State) (k : SeqStep) : (s.waitReady k).nvMode = s.nvMode := by cases k <;> rfl
@[simp] theorem State.waitReady_nvBusy (s : State) (k : SeqStep) : (s.waitReady k).nvBusy = s.nvBusy := by cases k <;> rfl
@[simp] theorem State.waitReady_nvPending (s : State) (k : SeqStep) : (s.waitReady k).nvPending = s.nvPending := by cases k <;> rfl
@[simp] theorem State.waitReady_mem (s : State) (k : SeqStep) : (s.waitReady k).mem = s.mem := by cases k <;> rfl
@[simp] theorem State.waitReady_bus (s : State) (k : SeqStep) : (s.waitReady k).bus = .idle := by cases k <;> rfl
@[simp] theorem State.waitReady_diag (s : State) (k : SeqStep) : (s.waitReady k).diag = .none := by cases k <;> rfl
@[simp] theorem State.waitReady_pins (s : State) (k : SeqStep) : (s.waitReady k).pins = s.pins := by cases k <;> rfl
@[simp] theorem State.waitReady_turn (s : State) (k : SeqStep) : (s.waitReady k).turn = s.turn := by cases k <;> rfl
@[simp] theorem State.waitReady_script (s : State) (k : SeqStep) : (s.waitReady k).script = s.script := by cases k <;> rfl
@[simp] theorem State.waitReady_draws (s : State) (k : SeqStep) : (s.waitReady k).draws = s.draws := by cases k <;> rfl
@[simp] theorem State.waitReady_params (s : State) (k : SeqStep) : (s.waitReady k).params = s.params := by cases k <;> rfl

/-! ### `advance` -/

@[simp] theorem advance_latch (s : State) : (advance s).latch = s.latch := by unfold advance; split <;> rfl
@[simp] theorem advance_phase (s : State) : (advance s).phase = s.phase := by unfold advance; split <;> rfl
@[simp] theorem advance_wstate (s : State) : (advance s).wstate = s.wstate := by unfold advance; split <;> rfl
@[simp] theorem advance_W (s : State) : (advance s).W = s.W := by unfold advance; split <;> rfl
@[simp] theorem advance_pollcnt (s : State) : (advance s).pollcnt = s.pollcnt := by unfold advance; split <;> rfl
@[simp] theorem advance_err (s : State) : (advance s).err = s.err := by unfold advance; split <;> rfl
@[simp] theorem advance_restartReq (s : State) : (advance s).restartReq = s.restartReq := by unfold advance; split <;> rfl
@[simp] theorem advance_nvMode (s : State) : (advance s).nvMode = s.nvMode := by unfold advance; split <;> rfl
@[simp] theorem advance_nvBusy (s : State) : (advance s).nvBusy = s.nvBusy := by unfold advance; split <;> rfl
@[simp] theorem advance_nvPending (s : State) : (advance s).nvPending = s.nvPending := by unfold advance; split <;> rfl
@[simp] theorem advance_mem (s : State) : (advance s).mem = s.mem := by unfold advance; split <;> rfl
@[simp] theorem advance_bus (s : State) : (advance s).bus = s.bus := by unfold advance; split <;> rfl
@[simp] theorem advance_diag (s : State) : (advance s).diag = s.diag := by unfold advance; split <;> rfl
@[simp] theorem advance_params (s : State) : (advance s).params = s.params := by unfold advance; split <;> rfl
@[simp] theorem advance_draws (s : State) : (advance s).draws = s.draws + 1 := by unfold advance; split <;> rfl

theorem advance_scripted {s : State} {c : Stimulus} {rest : List Stimulus} (h : s.script = c :: rest) :
    (advance s).turn = c.turn ∧ (advance s).pins = c.pins ∧ (advance s).script = rest := by
  simp [advance, h]

/-! ### `land` and `abandon`: what they leave alone -/

@[simp] theorem State.land_latch (s : State) : s.land.latch = s.latch := by unfold State.land; split <;> rfl
@[simp] theorem State.land_phase (s : State) : s.land.phase = s.phase := by unfold State.land; split <;> rfl
@[simp] theorem State.land_wstate (s : State) : s.land.wstate = s.wstate := by unfold State.land; split <;> rfl
@[simp] theorem State.land_W (s : State) : s.land.W = s.W := by unfold State.land; split <;> rfl
@[simp] theorem State.land_pollcnt (s : State) : s.land.pollcnt = s.pollcnt := by unfold State.land; split <;> rfl
@[simp] theorem State.land_err (s : State) : s.land.err = s.err := by unfold State.land; split <;> rfl
@[simp] theorem State.land_restartReq (s : State) : s.land.restartReq = s.restartReq := by unfold State.land; split <;> rfl
@[simp] theorem State.land_nvBusy (s : State) : s.land.nvBusy = s.nvBusy := by unfold State.land; split <;> rfl
@[simp] theorem State.land_nvPending (s : State) : s.land.nvPending = s.nvPending := by unfold State.land; split <;> rfl
@[simp] theorem State.land_bus (s : State) : s.land.bus = s.bus := by unfold State.land; split <;> rfl
@[simp] theorem State.land_diag (s : State) : s.land.diag = s.diag := by unfold State.land; split <;> rfl
@[simp] theorem State.land_pins (s : State) : s.land.pins = s.pins := by unfold State.land; split <;> rfl
@[simp] theorem State.land_turn (s : State) : s.land.turn = s.turn := by unfold State.land; split <;> rfl
@[simp] theorem State.land_script (s : State) : s.land.script = s.script := by unfold State.land; split <;> rfl
@[simp] theorem State.land_draws (s : State) : s.land.draws = s.draws := by unfold State.land; split <;> rfl
@[simp] theorem State.land_params (s : State) : s.land.params = s.params := by unfold State.land; split <;> rfl

@[simp] theorem State.abandon_latch (s : State) (fate : ControllerFate) : (s.abandon fate).latch = s.latch := by
  unfold State.abandon; split <;> rfl
@[simp] theorem State.abandon_phase (s : State) (fate : ControllerFate) : (s.abandon fate).phase = s.phase := by
  unfold State.abandon; split <;> rfl
@[simp] theorem State.abandon_wstate (s : State) (fate : ControllerFate) : (s.abandon fate).wstate = s.wstate := by
  unfold State.abandon; split <;> rfl
@[simp] theorem State.abandon_W (s : State) (fate : ControllerFate) : (s.abandon fate).W = s.W := by
  unfold State.abandon; split <;> rfl
@[simp] theorem State.abandon_pollcnt (s : State) (fate : ControllerFate) : (s.abandon fate).pollcnt = s.pollcnt := by
  unfold State.abandon; split <;> rfl
@[simp] theorem State.abandon_err (s : State) (fate : ControllerFate) : (s.abandon fate).err = s.err := by
  unfold State.abandon; split <;> rfl
@[simp] theorem State.abandon_restartReq (s : State) (fate : ControllerFate) : (s.abandon fate).restartReq = s.restartReq := by
  unfold State.abandon; split <;> rfl
@[simp] theorem State.abandon_nvMode (s : State) (fate : ControllerFate) : (s.abandon fate).nvMode = fate.mode := by
  unfold State.abandon; split <;> rfl
@[simp] theorem State.abandon_bus (s : State) (fate : ControllerFate) : (s.abandon fate).bus = s.bus := by
  unfold State.abandon; split <;> rfl
@[simp] theorem State.abandon_diag (s : State) (fate : ControllerFate) : (s.abandon fate).diag = s.diag := by
  unfold State.abandon; split <;> rfl
@[simp] theorem State.abandon_pins (s : State) (fate : ControllerFate) : (s.abandon fate).pins = s.pins := by
  unfold State.abandon; split <;> rfl
@[simp] theorem State.abandon_turn (s : State) (fate : ControllerFate) : (s.abandon fate).turn = s.turn := by
  unfold State.abandon; split <;> rfl
@[simp] theorem State.abandon_script (s : State) (fate : ControllerFate) : (s.abandon fate).script = s.script := by
  unfold State.abandon; split <;> rfl
@[simp] theorem State.abandon_draws (s : State) (fate : ControllerFate) : (s.abandon fate).draws = s.draws := by
  unfold State.abandon; split <;> rfl
@[simp] theorem State.abandon_params (s : State) (fate : ControllerFate) : (s.abandon fate).params = s.params := by
  unfold State.abandon; split <;> rfl

end Sys2Proof.Machine
end

