-- ==== Sys2Proof/Laws/Ops.lean ====
section
/-! SUPPORT. One lemma per shared operation that says everything it can do, and the facts about region addresses. -/

namespace Sys2Proof

/-! ### Parameters and region addresses -/

/-- R8: what a legal configuration is. -/
theorem Params.legal_iff (p : Params) : p.legal = true ↔
    p.regionBase.toNat % 4 = 0 ∧ p.configAddr.toNat % 4 = 0 ∧ 1 ≤ p.regionWords ∧
    p.regionBase.toNat ≤ p.configAddr.toNat ∧ p.configAddr.toNat < p.regionBase.toNat + 4 * p.regionWords ∧
    ∀ l, p.pollLimit = some l → 1 ≤ l ∧ l < 4294967296 := by
  unfold Params.legal
  cases h : p.pollLimit <;> simp [and_assoc]

theorem Params.storable_iff (p : Params) (a : Word) : p.storable a = true ↔
    a.toNat % 4 = 0 ∧ p.regionBase.toNat ≤ a.toNat ∧ a.toNat < p.regionEnd := by
  simp [Params.storable, and_assoc]

/-- R35: a legal `CONFIG_ADDR` can be stored to. -/
theorem Params.storable_configAddr {p : Params} (h : p.legal = true) : p.storable p.configAddr = true := by
  obtain ⟨_, h2, _, h4, h5, _⟩ := (Params.legal_iff p).1 h
  exact (Params.storable_iff ..).2 ⟨h2, h4, h5⟩

/-- R32: the target word is in the region. -/
theorem Params.target_lt {p : Params} (h : p.legal = true) : p.target < p.regionWords := by
  obtain ⟨_, _, _, _, h5, _⟩ := (Params.legal_iff p).1 h
  unfold Params.target
  omega

/-- R32: the word a store to `CONFIG_ADDR` programs is the target word. -/
theorem Params.programAddr_configAddr (p : Params) : p.programAddr p.configAddr = p.wordAddr p.target := rfl

/-- R32: the target word stands at `CONFIG_ADDR`. -/
theorem Params.wordAddr_target {p : Params} (h : p.legal = true) : p.wordAddr p.target = p.configAddr.toNat := by
  obtain ⟨h1, h2, _, h4, _, _⟩ := (Params.legal_iff p).1 h
  unfold Params.wordAddr Params.target
  omega

/-- R41: a program the controller accepted stays inside the region. -/
theorem Params.programAddr_inside {p : Params} {a : Word} (h : p.storable a = true) :
    p.regionBase.toNat ≤ p.programAddr a ∧ p.programAddr a + 4 ≤ p.regionEnd := by
  obtain ⟨_, h2, h3⟩ := (Params.storable_iff ..).1 h
  unfold Params.programAddr Params.wordAddr
  unfold Params.regionEnd at *
  omega

/-- Two region words do not overlap. -/
theorem Params.wordAddr_apart (p : Params) {i j : Nat} (h : i ≠ j) :
    p.wordAddr i + 4 ≤ p.wordAddr j ∨ p.wordAddr j + 4 ≤ p.wordAddr i := by
  unfold Params.wordAddr
  omega

namespace Machine

/-! ### Outcomes -/

@[simp] theorem onNext_next (f : State → State) (s : State) : onNext f (.next s) = .next (f s) := rfl
@[simp] theorem onNext_fault (f : State → State) (r : Fault) : onNext f (.fault r) = .fault r := rfl
@[simp] theorem onNext_refused (f : State → State) (r : Refusal) : onNext f (.refused r) = .refused r := rfl

theorem onNext_eq_next {f : State → State} {o : Host.Outcome State Fault Refusal} {t : State} :
    onNext f o = .next t ↔ ∃ s, o = .next s ∧ t = f s := by
  cases o <;> simp [onNext, eq_comm]

/-! ### The controller's port -/

/-- R37: a mode write is accepted exactly when the controller is ready. -/
theorem busNvMode_eq_next {m : Mode} {s t : State} :
    busNvMode m s = .next t ↔ s.nvBusy = false ∧ t = s.accept (.mode m) (.mode m) := by
  unfold busNvMode
  cases s.nvBusy <;> simp [eq_comm]

/-- R38: an erase is accepted exactly when the controller is ready and erase-enabled. -/
theorem busNvErase_eq_next {s t : State} :
    busNvErase s = .next t ↔ (s.nvBusy = false ∧ s.nvMode = .eraseEnabled) ∧ t = s.accept .erase .erase := by
  unfold busNvErase
  cases s.nvBusy <;> cases s.nvMode <;> simp [@eq_comm State]

/-- R39: a store is accepted exactly when the controller is ready, write-enabled, and the address is a word of the region. -/
theorem busMemWrite_eq_next {a v : Word} {s t : State} :
    busMemWrite a v s = .next t ↔
      (s.nvBusy = false ∧ s.nvMode = .writeEnabled ∧ s.params.storable a = true) ∧
        t = s.accept (.write a v) (.program a v) := by
  unfold busMemWrite
  cases s.nvBusy <;> cases s.nvMode <;> cases s.params.storable a <;> simp [@eq_comm State]

/-! ### Observation -/

/-- R42: only an operation in flight hides the region. -/
@[simp] theorem State.observeByte_ready {s : State} (h : s.nvBusy = false) (a : Nat) :
    s.observeByte a = Memory.read s.mem a := by
  simp [State.observeByte, State.disturbed, h]

/-- A mode change in flight hides nothing. -/
theorem State.observeByte_mode {s : State} {m : Mode} (h : s.nvPending = .mode m) (a : Nat) :
    s.observeByte a = Memory.read s.mem a := by
  simp [State.observeByte, State.disturbed, h, Pending.affected]

theorem State.observeByte_outside {s : State} {a : Nat}
    (h : a < (s.nvPending.affected s.params).1 ∨ (s.nvPending.affected s.params).2 ≤ a) :
    s.observeByte a = Memory.read s.mem a := by
  have : s.disturbed a = false := by
    unfold State.disturbed
    rcases h with h | h <;> simp <;> omega
  simp [State.observeByte, this]

theorem State.observeByte_disturbed {s : State} {a : Nat} (hb : s.nvBusy = true)
    (h : (s.nvPending.affected s.params).1 ≤ a) (h' : a < (s.nvPending.affected s.params).2) :
    s.observeByte a = none := by
  simp [State.observeByte, State.disturbed, hb, h, h']

/-- The observer depends on the controller, the region and the parameters alone. -/
theorem State.observeByte_congr {s t : State} (hb : t.nvBusy = s.nvBusy) (hp : t.nvPending = s.nvPending)
    (hm : t.mem = s.mem) (hq : t.params = s.params) (a : Nat) : t.observeByte a = s.observeByte a := by
  simp [State.observeByte, State.disturbed, hb, hp, hm, hq]

/-- A word none of whose bytes is disturbed is read from the store. -/
theorem State.observeWord_eq {s : State} {i : Nat}
    (h : ∀ j < 4, s.observeByte (s.params.wordAddr i + j) = Memory.read s.mem (s.params.wordAddr i + j)) :
    s.observeWord i = Memory.readWord s.mem (s.params.wordAddr i) := by
  have h0 := h 0 (by omega)
  rw [Nat.add_zero] at h0
  unfold State.observeWord Memory.readWord
  rw [h0, h 1 (by omega), h 2 (by omega), h 3 (by omega)]

@[simp] theorem State.observeByte_quiet (s : State) (a : Nat) : s.quiet.observeByte a = s.observeByte a := rfl

/-! ### The wait (R83) -/

theorem waitStep_ready {s : State} (k : SeqStep) (h : s.nvBusy = false) : waitStep k s = s.waitReady k := by
  simp [waitStep, State.ready, h]

theorem waitStep_spin {s : State} (k : SeqStep) (h : s.nvBusy = true) (hl : s.pollExpires = false) :
    waitStep k s = s.waitSpin k := by
  simp [waitStep, State.ready, h, hl]

theorem waitStep_timeout {s : State} (k : SeqStep) (h : s.nvBusy = true) (hl : s.pollExpires = true) :
    waitStep k s = s.waitTimeout k := by
  simp [waitStep, State.ready, h, hl]

theorem State.pollExpires_eq_false {s : State} :
    s.pollExpires = false ↔ ∀ l, s.params.pollLimit = some l → s.pollcnt.toNat + 1 < l := by
  unfold State.pollExpires
  cases s.params.pollLimit <;> simp

/-- Everything one execution of a wait can do. -/
theorem waitStep_cases (k : SeqStep) (s : State) :
    (s.nvBusy = false ∧ waitStep k s = s.waitReady k) ∨
    (s.nvBusy = true ∧ s.pollExpires = true ∧ waitStep k s = s.waitTimeout k) ∨
    (s.nvBusy = true ∧ s.pollExpires = false ∧ waitStep k s = s.waitSpin k) := by
  cases hb : s.nvBusy
  · exact .inl ⟨rfl, waitStep_ready k hb⟩
  · cases hl : s.pollExpires
    · exact .inr (.inr ⟨rfl, rfl, waitStep_spin k hb hl⟩)
    · exact .inr (.inl ⟨rfl, rfl, waitStep_timeout k hb hl⟩)

/-- Below the limit the counter counts the not-ready answers (R16). -/
theorem State.pollcntAfterBusy_limited {s : State} {l : Nat} (h : s.params.pollLimit = some l) :
    s.pollcntAfterBusy = s.pollcnt + 1 := by
  simp [State.pollcntAfterBusy, h]

theorem State.pollcntAfterBusy_unlimited {s : State} (h : s.params.pollLimit = none) :
    s.pollcntAfterBusy = s.pollcnt := by
  simp [State.pollcntAfterBusy, h]

/-! ### The ENCODE step (R96, R98) -/

/-- Everything the ENCODE step can do. -/
theorem State.encodeStep_cases (s : State) :
    (∃ w, encodeRecord s.pins.pOffset s.pins.pMode s.pins.pStatus s.pins.pSetpoint = .ok w ∧
      s.encodeStep = s.quiet.commitWord w) ∨
    (∃ f, encodeRecord s.pins.pOffset s.pins.pMode s.pins.pStatus s.pins.pSetpoint = .error f ∧
      s.encodeStep = s.quiet.raiseFieldOverflow f) := by
  unfold State.encodeStep
  cases h : encodeRecord s.pins.pOffset s.pins.pMode s.pins.pStatus s.pins.pSetpoint with
  | ok w => exact .inl ⟨w, rfl, rfl⟩
  | error f => exact .inr ⟨f, rfl, rfl⟩

/-! ### Steps of the world outside -/

theorem complete_idle {s : State} (h : s.nvBusy = false) : complete s = s.quiet := by
  simp [complete, h]

theorem complete_busy {s : State} (h : s.nvBusy = true) :
    complete s = { s.land.quiet with nvPending := .none, nvBusy := false } := by
  simp [complete, h]

theorem platformReset_whole {s : State} (fate : ControllerFate) (h : s.cutShort = false) :
    platformReset fate s = s.resetBlock := by
  simp [platformReset, h]

theorem platformReset_cut {s : State} (fate : ControllerFate) (h : s.cutShort = true) :
    platformReset fate s = (s.abandon fate).resetBlock := by
  simp [platformReset, h]

end Machine

end Sys2Proof
end

