-- ==== Sys2Proof/Laws/PerInstr.lean ====
section
/-! SUPPORT. Statements for all instructions, one lemma per constructor: what is presented for an instruction and its place. -/

namespace Sys2Proof.Laws.Place

/-- R64: an operation of the block has a phase and no port command, a bus operation a port command and no phase, a data
word neither; and what the encoder presents for it carries that phase's code or that command. -/
def Statement (i : Instr) : Prop :=
  match encode i with
  | .phase c => ∃ p, i.phase? = some p ∧ i.busOp? = none ∧ c = p.code ∧ p.operation = i
  | .bus cmd modeVal addr wdata => ∃ op, i.phase? = none ∧ i.busOp? = some op ∧ op.operation = i ∧
      decodeBus cmd modeVal addr wdata = .ok i
  | .word w => i.phase? = none ∧ i.busOp? = none ∧ i = .packedWord w

theorem poll : Statement .poll := ⟨.idle, rfl, rfl, rfl, rfl⟩
theorem encode : Statement .encode := ⟨.encode, rfl, rfl, rfl, rfl⟩
theorem modeEraseEn : Statement .modeEraseEn := ⟨.s1Issue, rfl, rfl, rfl, rfl⟩
theorem wait1 : Statement .wait1 := ⟨.s1Wait, rfl, rfl, rfl, rfl⟩
theorem eraseRegion : Statement .eraseRegion := ⟨.s2Issue, rfl, rfl, rfl, rfl⟩
theorem wait2 : Statement .wait2 := ⟨.s2Wait, rfl, rfl, rfl, rfl⟩
theorem modeWriteEn : Statement .modeWriteEn := ⟨.s3Issue, rfl, rfl, rfl, rfl⟩
theorem wait3 : Statement .wait3 := ⟨.s3Wait, rfl, rfl, rfl, rfl⟩
theorem storeWord : Statement .storeWord := ⟨.s4Issue, rfl, rfl, rfl, rfl⟩
theorem wait4 : Statement .wait4 := ⟨.s4Wait, rfl, rfl, rfl, rfl⟩
theorem modeReadOnly : Statement .modeReadOnly := ⟨.s5Issue, rfl, rfl, rfl, rfl⟩
theorem wait5 : Statement .wait5 := ⟨.s5Wait, rfl, rfl, rfl, rfl⟩
theorem ack : Statement .ack := ⟨.ack, rfl, rfl, rfl, rfl⟩
theorem restart : Statement .restart := ⟨.restart, rfl, rfl, rfl, rfl⟩
theorem halt : Statement .halt := ⟨.fault, rfl, rfl, rfl, rfl⟩
theorem packedWord (w : Word) : Statement (.packedWord w) := ⟨rfl, rfl, rfl⟩
theorem nvReady : Statement .nvReady := ⟨.idle, rfl, rfl, rfl, rfl⟩
theorem nvMode (m : Mode) : Statement (.nvMode m) :=
  ⟨.mode m, rfl, rfl, rfl, by cases m <;> rfl⟩
theorem nvErase : Statement .nvErase := ⟨.erase, rfl, rfl, rfl, rfl⟩
theorem memWrite (addr v : Word) : Statement (.memWrite addr v) := ⟨.write addr v, rfl, rfl, rfl, rfl⟩

end Sys2Proof.Laws.Place
end

