-- ==== Sys2Proof/Laws/Step.lean ====
section
/-! SUPPORT. What a step can do, once: the inversion of `step`, and of the block's step by phase. -/

namespace Sys2Proof.Machine

theorem step_block {s : State} (hl : s.params.legal = true) (ht : s.turn = .block) :
    step s = onNext advance (exec s.phase.operation s) := by
  simp [step, hl, ht]

theorem step_controller {s : State} (hl : s.params.legal = true) (ht : s.turn = .controller) :
    step s = .next (advance (complete s)) := by
  simp [step, hl, ht]

theorem step_platform {s : State} {fate : ControllerFate} (hl : s.params.legal = true) (ht : s.turn = .platform fate) :
    step s = .next (advance (platformReset fate s)) := by
  simp [step, hl, ht]

theorem step_otherMaster {s : State} {op : BusOp} (hl : s.params.legal = true) (ht : s.turn = .otherMaster op)
    (hp : s.phase.inSequence = false) : step s = onNext (fun t => advance t.quiet) (exec op.operation s) := by
  simp [step, hl, ht, hp]

/-- Everything a step that answers a next state can be. -/
theorem step_cases {s t : State} (h : step s = .next t) :
    s.params.legal = true ∧
    ((s.turn = .block ∧ ∃ u, exec s.phase.operation s = .next u ∧ t = advance u) ∨
     (s.turn = .controller ∧ t = advance (complete s)) ∨
     (∃ fate, s.turn = .platform fate ∧ t = advance (platformReset fate s)) ∨
     (∃ op u, s.turn = .otherMaster op ∧ s.phase.inSequence = false ∧ exec op.operation s = .next u ∧
       t = advance u.quiet)) := by
  unfold step at h
  split at h
  · rename_i hl
    refine ⟨hl, ?_⟩
    split at h
    · rename_i ht
      exact .inl ⟨ht, onNext_eq_next.1 h⟩
    · rename_i ht
      exact .inr (.inl ⟨ht, by simpa [eq_comm] using h⟩)
    · rename_i fate ht
      exact .inr (.inr (.inl ⟨fate, ht, by simpa [eq_comm] using h⟩))
    · rename_i op ht
      split at h
      · simp at h
      · rename_i hp
        obtain ⟨u, hu, rfl⟩ := onNext_eq_next.1 h
        exact .inr (.inr (.inr ⟨op, u, ht, by simpa using hp, hu, rfl⟩))
  · simp at h

/-- Everything an issue by a mode write can do (R73, R77, R81). -/
theorem modeIssue_eq_next {k : SeqStep} {m : Mode} {s t : State} :
    onNext (fun u => u.enterWait k) (busNvMode m s.quiet) = .next t ↔
      s.nvBusy = false ∧ t = (s.quiet.accept (.mode m) (.mode m)).enterWait k := by
  simp only [onNext_eq_next, busNvMode_eq_next, State.quiet_nvBusy]
  constructor
  · rintro ⟨_, ⟨h, rfl⟩, rfl⟩
    exact ⟨h, rfl⟩
  · rintro ⟨h, rfl⟩
    exact ⟨_, ⟨h, rfl⟩, rfl⟩

/-- Everything ERASE_REGION can do (R75). -/
theorem execEraseRegion_eq_next {s t : State} :
    execEraseRegion s = .next t ↔ (s.nvBusy = false ∧ s.nvMode = .eraseEnabled) ∧
      t = (s.quiet.accept .erase .erase).enterWait .s2 := by
  simp only [execEraseRegion, onNext_eq_next, busNvErase_eq_next, State.quiet_nvBusy, State.quiet_nvMode]
  constructor
  · rintro ⟨_, ⟨h, rfl⟩, rfl⟩
    exact ⟨h, rfl⟩
  · rintro ⟨h, rfl⟩
    exact ⟨_, ⟨h, rfl⟩, rfl⟩

/-- Everything STORE_WORD can do (R79). -/
theorem execStoreWord_eq_next {s t : State} :
    execStoreWord s = .next t ↔
      (s.nvBusy = false ∧ s.nvMode = .writeEnabled ∧ s.params.storable s.params.configAddr = true) ∧
      t = (s.quiet.accept (.write s.params.configAddr s.W) (.program s.params.configAddr s.W)).enterWait .s4 := by
  simp only [execStoreWord, onNext_eq_next, busMemWrite_eq_next, State.quiet_nvBusy, State.quiet_nvMode,
    State.quiet_params]
  constructor
  · rintro ⟨_, ⟨h, rfl⟩, rfl⟩
    exact ⟨h, rfl⟩
  · rintro ⟨h, rfl⟩
    exact ⟨_, ⟨h, rfl⟩, rfl⟩

end Sys2Proof.Machine
end

