-- ==== Sys2Proof/Tests/Slice0.lean ====
section
/-! SUPPORT. Tests with expected values from spec/95_test_vectors.md and the tables of 30_encoding.md, the WellFormed smoke test, and a witness for the hypotheses of every statement that has some. -/

namespace Sys2Proof.Tests

open Sys2Proof.Machine Sys2Proof.Safety

/-! ### Helpers -/

/-- A small state: the region of the programs P1 to P7 (four words, target index 2), the block in its reset state, ports of
scenario 1, the button pressed. -/
def base : State :=
  { State.reset with
    W := 0
    pins := ⟨.pressed, 0x0A#32, 1#32, 0#32, 0x2EE#32⟩
    mem := Memory.writeWord (Memory.writeWord (Memory.writeWord (Memory.writeWord [] 0x10001000 0x11111111#32) 0x10001004
      0x22222222#32) 0x10001008 0x33333333#32) 0x1000100C 0x44444444#32 }

/-- The region erased. -/
def erased : State :=
  { base with
    mem := Memory.eraseWords base.mem 0x10001000 0xFFFFFFFF#32 4
    W := 0x00BB840A#32
    latch := .latched }

/-- `base` with a busy controller and a limit of three reads. -/
def busy3 (cnt : BitVec 32) : State :=
  { base with
    phase := .s2Wait, wstate := .eraseEnabled, nvMode := .eraseEnabled, nvBusy := true, nvPending := .erase
    pollcnt := cnt, params := { base.params with pollLimit := some 3 } }

/-- The next state, if there is one. -/
def nextOf (o : Host.Outcome State Fault Refusal) : Option State :=
  match o with
  | .next s => some s
  | .fault _ => none
  | .refused _ => none

/-- Whether the outcome is the contract violation. -/
def violates (o : Host.Outcome State Fault Refusal) : Bool :=
  match o with
  | .next _ => false
  | .fault .nvContractViolation => true
  | .refused _ => false

/-- Whether the outcome is a given refusal. -/
def refusedBy (r : Refusal) (o : Host.Outcome State Fault Refusal) : Bool :=
  match o with
  | .next _ => false
  | .fault _ => false
  | .refused r' => decide (r' = r)

/-! ### WellFormed: the one check, and a term it refuses (C1: the source's wrong literal) -/

theorem test_wellFormed_accepts_scenario1 : (Instr.packedWord 0x00BB840A#32).wellFormed = true := by decide
theorem test_wellFormed_refuses_high_byte : (Instr.packedWord 0x0BB80409#32).wellFormed = false := by decide
theorem test_wellFormed_refuses_bit8 : (Instr.packedWord 0x00000100#32).wellFormed = false := by decide

/-! ### Decoding, every constructor: codes of the table in R64, R57, R51 -/

theorem test_decode_poll : decode (.phase 0b0000#4) = .ok .poll := by decide
theorem test_decode_encode : decode (.phase 0b0001#4) = .ok .encode := by decide
theorem test_decode_modeEraseEn : decode (.phase 0b0010#4) = .ok .modeEraseEn := by decide
theorem test_decode_wait1 : decode (.phase 0b0011#4) = .ok .wait1 := by decide
theorem test_decode_eraseRegion : decode (.phase 0b0100#4) = .ok .eraseRegion := by decide
theorem test_decode_wait2 : decode (.phase 0b0101#4) = .ok .wait2 := by decide
theorem test_decode_modeWriteEn : decode (.phase 0b0110#4) = .ok .modeWriteEn := by decide
theorem test_decode_wait3 : decode (.phase 0b0111#4) = .ok .wait3 := by decide
theorem test_decode_storeWord : decode (.phase 0b1000#4) = .ok .storeWord := by decide
theorem test_decode_wait4 : decode (.phase 0b1001#4) = .ok .wait4 := by decide
theorem test_decode_modeReadOnly : decode (.phase 0b1010#4) = .ok .modeReadOnly := by decide
theorem test_decode_wait5 : decode (.phase 0b1011#4) = .ok .wait5 := by decide
theorem test_decode_ack : decode (.phase 0b1100#4) = .ok .ack := by decide
theorem test_decode_restart : decode (.phase 0b1101#4) = .ok .restart := by decide
theorem test_decode_halt : decode (.phase 0b1110#4) = .ok .halt := by decide
theorem test_decode_phase15 : decode (.phase 0b1111#4) = .error .reservedPhase := by decide
theorem test_decode_packedWord :
    decode (.word 0b00000000101110111000010000001010#32) = .ok (.packedWord 0x00BB840A#32) := by decide
theorem test_decode_packedWord_bit9 : decode (.word 0x00000200#32) = .error .reservedBits := by decide
theorem test_decode_nvReady : decode (.bus 0b00#2 0#2 0#32 0#32) = .ok .nvReady := by decide
theorem test_decode_nvMode : decode (.bus 0b01#2 0b01#2 0#32 0#32) = .ok (.nvMode .writeEnabled) := by decide
theorem test_decode_nvMode3 : decode (.bus 0b01#2 0b11#2 0#32 0#32) = .error .reservedMode := by decide
theorem test_decode_nvErase : decode (.bus 0b10#2 0#2 0#32 0#32) = .ok .nvErase := by decide
theorem test_decode_memWrite : decode (.bus 0b11#2 0#2 0x10001008#32 0x00BB840A#32) =
    .ok (.memWrite 0x10001008#32 0x00BB840A#32) := by decide
theorem test_decodeTableWord_store : decodeTableWord 8 8 = some .storeWord := by decide
theorem test_decodeTableWord_word : decodeTableWord 32 0x00BB840A = some (.packedWord 0x00BB840A#32) := by decide
theorem test_decodeTableWord_cmd : decodeTableWord 2 2 = some .nvErase := by decide

/-! ### The encoder: vectors E1, E3, E12, F5, F11, G1, G5 -/

theorem test_encode_E1 : encodeRecord 0x0A#32 1#32 0#32 0x2EE#32 = .ok 0x00BB840A#32 := by decide
theorem test_encode_E3 : encodeRecord 0xFF#32 3#32 3#32 0x3FF#32 = .ok 0x00FFFCFF#32 := by decide
theorem test_encode_E12 : encodeRecord 0x80#32 2#32 1#32 0x200#32 = .ok 0x00801880#32 := by decide
theorem test_encode_F4 : encodeRecord 0#32 0#32 0#32 0x400#32 = .error .setpoint := by decide
theorem test_encode_F5 : encodeRecord 0x100#32 4#32 4#32 0x400#32 = .error .offset := by decide
theorem test_encode_F10 : encodeRecord 0#32 0#32 0x80000000#32 0#32 = .error .status := by decide
theorem test_encode_F11 : encodeRecord 0x0A#32 1#32 0#32 0x6EE#32 = .error .setpoint := by decide
theorem test_decodeRecord_G1 : decodeRecord 0x00BB840A#32 = some ⟨0x0A#8, 1#2, 0#2, 0x2EE#10⟩ := by decide
theorem test_decodeRecord_G5 : decodeRecord 0x0BB80409#32 = none := by decide

/-! ### POLL: T1, T4, and T5 (scenario 3) -/

theorem test_poll_T1 : (nextOf (exec .poll base)).map (fun t => (t.latch, t.phase)) = some (.latched, .encode) := by decide
theorem test_poll_T4 : (nextOf (exec .poll { base with
    latch := .latched, pins := { base.pins with btnLevel := .released } })).map (fun t => (t.latch, t.phase)) =
    some (.armed, .idle) := by decide
theorem test_poll_T5 : pollRequests [.pressed, .pressed, .pressed, .released, .pressed] base =
    [true, false, false, false, true] := by decide

/-! ### Controller: K1, K3, K4, K5, K6, K7 -/

theorem test_encode_K1 : (nextOf (exec .encode { base with phase := .encode })).map
    (fun t => (t.W, t.err, t.phase, t.diagKind, t.diagData)) =
    some (0x00BB840A#32, .noError, .s1Issue, 1#2, 0x00BB840A#32) := by decide
theorem test_encode_K3 : (nextOf (exec .encode { base with
      phase := .encode, latch := .latched, W := 7, pins := { base.pins with pSetpoint := 0x400#32 } })).map
    (fun t => (t.W, t.latch, t.phase, t.errCode, t.diagData)) =
    some (7#32, .latched, .idle, 0b01011#5, 0x0000000B#32) := by decide
theorem test_ack_K4 : (nextOf (exec .ack { base with phase := .ack })).map (fun t => (t.phase, t.diagKind, t.diagData)) =
    some (.restart, 2#2, 0#32) := by decide
theorem test_restart_K5 : (nextOf (exec .restart { base with phase := .restart })).map (fun t => (t.phase, t.restartReq)) =
    some (.restart, true) := by decide
theorem test_restart_K6 : (nextOf (exec .restart { base with phase := .restart, restartReq := true })).map
    (fun t => (t.phase, t.restartReq)) = some (.restart, true) := by decide
theorem test_halt_K7 : (nextOf (exec .halt { base with phase := .fault, err := .hardwareTimeout .s2 })).map
    (fun t => (t.phase, t.errCode, t.nvCmd)) = some (.fault, 0b10010#5, 0#2) := by decide

/-! ### Waits: W2, W4, W6, W7, W8 and the confirmation of each step -/

theorem test_wait1_ready : (nextOf (exec .wait1 { base with phase := .s1Wait })).map (fun t => (t.phase, t.wstate)) =
    some (.s2Issue, .eraseEnabled) := by decide
theorem test_wait3_ready : (nextOf (exec .wait3 { base with phase := .s3Wait, wstate := .eraseEnabled })).map
    (fun t => (t.phase, t.wstate)) = some (.s4Issue, .writeEnabled) := by decide
theorem test_wait4_ready : (nextOf (exec .wait4 { base with phase := .s4Wait, wstate := .writeEnabled })).map
    (fun t => (t.phase, t.wstate)) = some (.s5Issue, .writeEnabled) := by decide
theorem test_wait5_ready : (nextOf (exec .wait5 { base with phase := .s5Wait, wstate := .writeEnabled })).map
    (fun t => (t.phase, t.wstate)) = some (.ack, .readOnly) := by decide
theorem test_wait_W2 : (nextOf (exec .wait4 { base with phase := .s4Wait, nvBusy := true })).map
    (fun t => (t.phase, t.pollcnt)) = some (.s4Wait, 0) := by decide
theorem test_wait_W6 : (nextOf (exec .wait2 (busy3 1))).map (fun t => (t.phase, t.pollcnt)) = some (.s2Wait, 2) := by decide
theorem test_wait_W7 : (nextOf (exec .wait2 (busy3 2))).map (fun t => (t.phase, t.pollcnt, t.errCode, t.diagData)) =
    some (.fault, 3, 0b10010#5, 0x00000012#32) := by decide
theorem test_wait_W8 : (nextOf (exec .wait2 { busy3 2 with nvBusy := false })).map (fun t => (t.phase, t.pollcnt)) =
    some (.s3Issue, 0) := by decide
theorem test_wait_W10 : (nextOf (exec .wait5 { base with
      nvBusy := true, pollcnt := 0xFFFFFFFE#32, params := { base.params with pollLimit := some 0xFFFFFFFF } })).map
    (fun t => (t.phase, t.pollcnt, t.errCode)) = some (.fault, 0xFFFFFFFF#32, 0b10101#5) := by decide

/-! ### Issues and completions: S1 to S5 -/

theorem test_issue_S1 : (nextOf (exec .modeEraseEn { base with phase := .s1Issue })).map
    (fun t => (t.phase, t.nvBusy, t.nvPending, t.nvCmd, t.nvModeVal)) =
    some (.s1Wait, true, .mode .eraseEnabled, 1#2, 2#2) := by decide
theorem test_issue_S2 : (nextOf (exec .eraseRegion { base with nvMode := .eraseEnabled })).map
    (fun t => (t.phase, t.nvPending, t.nvCmd, t.nvAddr, t.observeWord 0)) =
    some (.s2Wait, .erase, 2#2, 0x10001008#32, none) := by decide
theorem test_issue_S3 : (nextOf (exec .modeWriteEn { base with nvMode := .eraseEnabled })).map
    (fun t => (t.phase, t.nvMode, t.nvPending)) = some (.s3Wait, .eraseEnabled, .mode .writeEnabled) := by decide
theorem test_issue_S4 : (nextOf (exec .storeWord { erased with nvMode := .writeEnabled })).map
    (fun t => ((t.phase, t.nvCmd, t.nvAddr, t.nvWdata), t.observeWord 2, t.observeWord 3)) =
    some ((.s4Wait, 3#2, 0x10001008#32, 0x00BB840A#32), none, some 0xFFFFFFFF#32) := by decide
theorem test_issue_S5 : (nextOf (exec .modeReadOnly { base with nvMode := .writeEnabled })).map
    (fun t => (t.phase, t.nvMode, t.nvCmd, t.nvModeVal)) =
    some (.s5Wait, .writeEnabled, 1#2, 0#2) := by decide
theorem test_complete_S2 :
    (let t := complete (busy3 0)
     (t.nvBusy, t.observeWord 0, t.observeWord 2, t.observeWord 3)) =
    (false, some 0xFFFFFFFF#32, some 0xFFFFFFFF#32, some 0xFFFFFFFF#32) := by decide
theorem test_complete_S4 :
    (let t := complete { erased with
       nvMode := .writeEnabled, nvBusy := true, nvPending := .program 0x10001008#32 0x00BB840A#32 }
     (t.memRead 0x10001008#32, t.observeWord 1, t.observeByte 0x10001008)) =
    (some 0x00BB840A#32, some 0xFFFFFFFF#32, some 0x0A#8) := by decide
/-- U6: a store to a word that was not erased leaves any value. -/
theorem test_complete_U6 :
    (complete { base with nvBusy := true, nvPending := .program 0x10001008#32 0x00BB840A#32 }).observeWord 2 = none := by
  decide

/-! ### Contract violations: V1, V3, V4, V5, V6; the flag: V7; the data format -/

theorem test_violation_V1 : violates (exec (.nvMode .eraseEnabled) { base with nvBusy := true }) = true := by decide
theorem test_violation_V3 : violates (exec .nvErase { base with nvMode := .writeEnabled }) = true := by decide
theorem test_violation_V4 : violates (exec (.memWrite 0x10001008#32 7#32) { base with nvMode := .eraseEnabled }) = true := by
  decide
theorem test_violation_V5 : violates (exec (.memWrite 0x1000100A#32 7#32) { base with nvMode := .writeEnabled }) = true := by
  decide
theorem test_violation_V6 : violates (exec (.memWrite 0x10001010#32 7#32) { base with nvMode := .writeEnabled }) = true := by
  decide
theorem test_flag_V7 : (base.nvReadyWire, ({ base with nvBusy := true } : State).nvReadyWire) = (1#1, 0#1) := by decide
theorem test_packedWord_is_data : refusedBy .dataFormat (exec (.packedWord 0x00BB840A#32) base) = true := by decide

/-! ### Reset: K8, and a reset in mid-sequence (U10) -/

theorem test_reset_K8 :
    (let t := platformReset ⟨.readOnly, false⟩ { base with latch := .latched, phase := .restart, restartReq := true }
     (t.latch, t.phase, t.restartReq, t.observeWord 0)) = (.armed, .idle, false, some 0x11111111#32) := by decide
theorem test_reset_U10 :
    (let t := platformReset ⟨.eraseEnabled, false⟩ (busy3 1)
     (t.phase, t.nvMode, t.nvBusy, t.observeWord 0)) = (.idle, .eraseEnabled, false, none) := by decide

/-! ### The step and the host's placing of an instruction -/

theorem test_step_runs_placed_store : violates (step (State.reset.withFetchWord 8 8)) = true := by decide
theorem test_step_runs_placed_ack : (nextOf (step (State.reset.withFetchWord 8 12))).map (fun t => t.phase) =
    some .restart := by decide
theorem test_step_runs_placed_mode : (nextOf (step (State.reset.withFetchWord 2 1))).map (fun t => t.nvPending) =
    some (.mode .readOnly) := by decide
/-- R57: another master's command is not the block's `nv_cmd`. -/
theorem test_step_other_master_wires : (nextOf (step (State.reset.withFetchWord 2 1))).map (fun t => (t.nvCmd, t.nvBusy)) =
    some (0#2, true) := by decide
theorem test_step_refuses_illegal_params :
    refusedBy .illegalParams (step { base with params := { base.params with configAddr := 0x10001002#32 } }) = true := by
  decide

/-! ### Witnesses: the hypotheses of each statement hold together somewhere -/

theorem witness_DecodeEncode : (Instr.packedWord 0x00FFFCFF#32).wellFormed = true := by decide
theorem witness_EncodeDecode_phase : decode (.phase 14#4) = .ok .halt := by decide
theorem witness_EncodeDecode_mode : decode (.bus 1#2 2#2 5#32 6#32) = .ok (.nvMode .eraseEnabled) := by decide
theorem witness_EncodeDecode_store : decode (.bus 3#2 1#2 5#32 6#32) = .ok (.memWrite 5#32 6#32) := by decide
theorem witness_EncodeDecode_word : decode (.word 0x00FFFCFF#32) = .ok (.packedWord 0x00FFFCFF#32) := by decide
theorem witness_ReservedBits_produced : encodeRecord 0xFF#32 3#32 3#32 0x3FF#32 = .ok 0x00FFFCFF#32 := by decide
theorem witness_ReservedBits_low : (0x00000100#32).extractLsb' 8 2 ≠ 0 := by decide
theorem witness_ReservedBits_high : (0x80000000#32).extractLsb' 24 8 ≠ 0 := by decide
theorem witness_EncoderValue : (0xFF#32).toNat < 2 ^ 8 ∧ (3#32).toNat < 2 ^ 2 ∧ (0x3FF#32).toNat < 2 ^ 10 := by decide
theorem witness_OverflowIsHighBits : overflows Field.setpoint.width 0x400#32 = true ∧
    overflows Field.setpoint.width 0x3FF#32 = false := by decide
theorem witness_EncoderRoundTrip_word : (0x00FFFCFF#32) &&& 0xFF000300#32 = 0 := by decide
theorem witness_HeldAcrossReset : base.pins.btnLevel = .pressed := by decide
theorem witness_EncodeAccepts : PortsEncodeTo base.pins 0x00BB840A#32 := by unfold PortsEncodeTo; decide
theorem witness_OverflowEntry :
    encodeRecord 0x0A#32 1#32 0#32 0x400#32 = .error .setpoint := by decide
theorem witness_ModeIssues : base.nvBusy = false := by decide
theorem witness_EraseIssue : (busy3 0).nvMode = .eraseEnabled ∧ ({ busy3 0 with nvBusy := false } : State).nvBusy = false := by
  decide
theorem witness_StoreIssue : ({ erased with nvMode := .writeEnabled } : State).nvBusy = false ∧
    ({ erased with nvMode := .writeEnabled } : State).nvMode = .writeEnabled ∧ erased.params.legal = true := by decide
theorem witness_WaitSpins_limited : (busy3 1).nvBusy = true ∧ WithinLimit (busy3 1).params ((busy3 1).pollcnt.toNat + 1) :=
  ⟨rfl, fun l h => by simp [busy3] at h; subst h; decide⟩
theorem witness_WaitSpins_unlimited : ({ base with nvBusy := true } : State).nvBusy = true ∧ WithinLimit base.params 1 :=
  ⟨rfl, fun l h => by simp [base, State.reset, State.resetWith, Params.initial] at h⟩
theorem witness_TimeoutEntry : (busy3 2).nvBusy = true ∧ (busy3 2).params.pollLimit = some 3 ∧
    3 ≤ (busy3 2).pollcnt.toNat + 1 := by decide

/-- `busy3 0` with the block's turns fixed for `n` steps after this one. -/
def waitingBlock (n : Nat) : State :=
  { busy3 0 with script := List.replicate n ⟨.block, base.pins⟩ }

theorem witness_WaitSpinsOn : (waitingBlock 2).params.legal = true ∧ (waitingBlock 2).phase = SeqStep.s2.waitPhase ∧
    (waitingBlock 2).nvBusy = true ∧ (waitingBlock 2).pollcnt = 0 ∧
    upcoming (waitingBlock 2) = List.replicate 2 .block ++ Turn.block :: [] ∧ WithinLimit (waitingBlock 2).params 2 :=
  ⟨by decide, rfl, rfl, rfl, rfl, fun l h => by simp [waitingBlock, busy3] at h; subst h; decide⟩
theorem witness_WaitTimesOut : (waitingBlock 2).params.legal = true ∧ (waitingBlock 2).params.pollLimit = some 3 ∧
    (waitingBlock 2).phase = SeqStep.s2.waitPhase ∧ (waitingBlock 2).nvBusy = true ∧ (waitingBlock 2).pollcnt = 0 ∧
    upcoming (waitingBlock 2) = List.replicate 3 .block ++ [] := by decide
theorem witness_NvMode_busy : (busy3 0).nvBusy = true := by decide
theorem witness_NvErase_wrongMode : base.nvMode ≠ .eraseEnabled := by decide
theorem witness_MemWrite_first_word : ({ base with nvMode := .writeEnabled } : State).nvBusy = false ∧
    (0x10001000#32).toNat % 4 = 0 ∧ base.params.regionBase.toNat % 4 = 0 ∧
    base.params.regionBase.toNat ≤ (0x10001000#32).toNat ∧
    (0x10001000#32).toNat < base.params.regionBase.toNat + 4 * base.params.regionWords := by decide
theorem witness_MemWrite_last_word : base.params.storable 0x1000100C#32 = true ∧
    base.params.storable 0x10001010#32 = false := by decide
theorem witness_MemWrite_block : (nextOf (exec .storeWord { erased with nvMode := .writeEnabled })).map (fun t => t.bus) =
    some (.write 0x10001008#32 0x00BB840A#32) := by decide
theorem witness_CompleteMode : ({ base with nvBusy := true, nvPending := .mode .eraseEnabled } : State).nvPending =
    .mode .eraseEnabled := by decide
theorem witness_CompleteErase : (busy3 0).nvBusy = true ∧ (busy3 0).nvPending = .erase := by decide
theorem witness_CompleteProgram : erased.params.regionBase.toNat % 4 = 0 ∧
    erased.params.storable 0x10001008#32 = true ∧
    Memory.readWord erased.mem (0x10001008#32).toNat = some erased.params.erasedWord := by decide
theorem witness_PlatformReset_undisturbed : base.disturbed 0x10001000 = false ∧ base.nvBusy = false ∧
    base.phase.midSequence = false := by decide
theorem witness_StepRunsDecoded : base.params.legal = true ∧ base.turn = .block ∧
    decode (.phase base.phase.code) = .ok .poll := by decide
theorem witness_StepRunsDecoded_script : (waitingBlock 1).script = ⟨.block, base.pins⟩ :: [] := by decide
theorem witness_StepOfOthers_illegal :
    ({ base.params with pollLimit := some 0 } : Params).legal = false ∧
    ({ base.params with configAddr := 0x10001010#32 } : Params).legal = false := by decide
theorem witness_StepOfOthers_master : Phase.s1Issue.inSequence = true ∧ Phase.s5Wait.inSequence = true ∧
    Phase.idle.inSequence = false ∧ Phase.ack.inSequence = false := by decide

/-- The reset state with a pressed button meets the invariant of a commit. -/
theorem commitInv_base : CommitInv base := by
  have hok : StateOk base := ⟨by decide, by decide, by decide, by simp [base, State.reset, State.resetWith]⟩
  refine ⟨hok, ⟨rfl, rfl, rfl, rfl⟩, ⟨by decide, by decide, by decide, by decide, ?_⟩⟩
  intro l h
  simp [base, State.reset, State.resetWith, Params.initial] at h

/-- The start of a sequence with the word of scenario 1, every operation completing at once. -/
def atIssue : State :=
  { base with
    phase := .s1Issue, latch := .latched, W := 0x00BB840A#32
    script := ((commitTurns (fun _ => 0)).drop 2).map (fun x => ⟨x, base.pins⟩) }

theorem commitInv_atIssue : CommitInv atIssue := by
  have hok : StateOk atIssue := ⟨by decide, by decide, by decide, by simp [atIssue, base, State.reset, State.resetWith]⟩
  refine ⟨hok, ⟨rfl, rfl, rfl, rfl⟩, ⟨by decide, by decide, by decide, by decide, ?_⟩⟩
  intro l h
  simp [atIssue, base, State.reset, State.resetWith, Params.initial] at h

theorem witness_StepKeepsStateOk : StateOk base ∧ (nextOf (step base)).isSome = true := ⟨commitInv_base.ok, by decide⟩
theorem witness_StepKeepsCommitInv : CommitInv base ∧ Permitted base ∧ (nextOf (step base)).isSome = true :=
  ⟨commitInv_base, trivial, by decide⟩
theorem witness_CommitInvariants : atIssue.params.legal = true ∧ CommitInv atIssue := ⟨by decide, commitInv_atIssue⟩
theorem witness_BlockNeverViolates : atIssue.params.legal = true ∧ CommitInv atIssue ∧ atIssue.turn = .block :=
  ⟨by decide, commitInv_atIssue, rfl⟩
theorem witness_WrittenBy : (nextOf (exec .modeEraseEn atIssue)).isSome = true := by decide
theorem witness_PhaseSuccessors : atIssue.turn = .block ∧ (nextOf (step atIssue)).isSome = true := by decide
theorem witness_RegionChanges : ((nextOf (step { busy3 0 with turn := .controller })).map (fun t => t.mem)) ≠
    some (busy3 0).mem := by decide
theorem witness_Protection : (nextOf (exec .eraseRegion { base with nvMode := .eraseEnabled })).map (fun t => t.nvPending) =
    some .erase := by decide
theorem witness_RestartSticks : (nextOf (step { base with phase := .restart, restartReq := true })).isSome = true := by
  decide
theorem witness_InputsRead : (⟨.pressed, 0#32, 0#32, 0#32, 0#32⟩ : Pins).btnLevel = base.pins.btnLevel := by decide

/-- The run of `n` steps of the block and the controller, with the bus events it shows. -/
def follow (s : State) : Nat → Option (List BusEvent × State)
  | 0 => some ([], s)
  | n + 1 =>
    match follow s n with
    | none => none
    | some (es, t) =>
      if t.turn = .block ∨ t.turn = .controller then
        match step t with
        | .next u => some (es ++ busEvents t u, u)
        | .fault _ => none
        | .refused _ => none
      else none

theorem follow_runs {s t : State} {n : Nat} {es : List BusEvent} (h : follow s n = some (es, t)) : Runs s es t := by
  induction n generalizing es t with
  | zero =>
    simp only [follow, Option.some.injEq, Prod.mk.injEq] at h
    obtain ⟨rfl, rfl⟩ := h
    exact .refl s
  | succ n ih =>
    unfold follow at h
    split at h
    · cases h
    · rename_i es' t' hf
      split at h
      · rename_i ht
        split at h
        · rename_i u hu
          simp only [Option.some.injEq, Prod.mk.injEq] at h
          obtain ⟨rfl, rfl⟩ := h
          exact .tail (ih hf) ht hu
        · cases h
        · cases h
      · cases h

theorem atIssue_reaches_ack : (follow atIssue 15).map (fun r => r.2.phase) = some .ack := by decide

theorem launchPremise_atIssue : LaunchPremise atIssue := ⟨rfl, rfl, rfl, by decide⟩

theorem witness_WriterGuarantee : ∃ es t, Runs atIssue es t ∧ t.phase = .ack ∧ LaunchPremise atIssue ∧
    atIssue.wstate = .readOnly ∧ atIssue.phase = .s1Issue ∧ atIssue.W = 0x00BB840A#32 := by
  obtain ⟨⟨es, t⟩, hf, hp⟩ := Option.map_eq_some_iff.1 atIssue_reaches_ack
  exact ⟨es, t, follow_runs hf, hp, launchPremise_atIssue, rfl, rfl, rfl⟩

/-- A press whose whole commit is scheduled, with one not-ready answer in each wait. -/
def pressed1 : State :=
  { base with script := (commitTurns (fun _ => 1)).map (fun x => ⟨x, base.pins⟩) }

theorem witness_CommitSucceeds : LaunchPremise pressed1 ∧ pressed1.wstate = .readOnly ∧ pressed1.phase = .idle ∧
    pressed1.latch = .armed ∧ pressed1.pins.btnLevel = .pressed ∧
    (∃ cs, pressed1.script = ⟨.block, base.pins⟩ :: cs) ∧ PortsEncodeTo base.pins 0x00BB840A#32 ∧
    upcoming pressed1 = .block :: (commitTurns (fun _ => 1) ++ []) ∧ WithinLimit pressed1.params 1 := by
  refine ⟨⟨rfl, rfl, rfl, by decide⟩, rfl, rfl, rfl, rfl, ⟨_, rfl⟩, witness_EncodeAccepts, by decide, ?_⟩
  intro l h
  simp [pressed1, base, State.reset, State.resetWith, Params.initial] at h

/-- A press with a setpoint out of range (scenario 2). -/
def pressedBad : State :=
  { base with script := [⟨.block, { base.pins with pSetpoint := 0x400#32 }⟩, ⟨.block, base.pins⟩] }

theorem witness_OverflowReturns : pressedBad.params.legal = true ∧ pressedBad.phase = .idle ∧ pressedBad.latch = .armed ∧
    pressedBad.pins.btnLevel = .pressed ∧
    upcoming pressedBad = .block :: .block :: [.block] ∧
    encodeRecord base.pins.pOffset base.pins.pMode base.pins.pStatus 0x400#32 = .error .setpoint := by decide

theorem witness_PortCommands : atIssue.turn = .block ∧ atIssue.phase = .s1Issue ∧
    (nextOf (step atIssue)).map (fun t => t.nvCmd) = some 1 := by decide

/-- What a state at step `k` of the run from `s` is asked. -/
def atStep (k : Nat) (s : State) (q : State → Bool) : Bool :=
  match nextOf (run k s) with
  | some t => q t
  | none => false

theorem atStep_iff {k : Nat} {s : State} {q : State → Bool} : atStep k s q = true ↔ ∃ t, run k s = .next t ∧ q t = true := by
  unfold atStep
  cases h : run k s <;> simp [nextOf]

/-- The run from `s` ends at step 17; up to there only the block and the controller move, and neither is kept waiting for
three steps. -/
def SoonOver (s : State) : Prop :=
  atStep 17 s (fun t => !t.blockEnabled) = true ∧
  ∀ k < 17, atStep k s (fun t => decide (t.turn = .block ∨ t.turn = .controller)) = true ∧
    (∃ j < 3, atStep (k + j) s (fun t => decide (t.turn = .block)) = true) ∧
    ∃ j < 3, atStep (k + j) s (fun t => !t.nvBusy) = true

theorem SoonOver.going {s : State} (h : SoonOver s) {k : Nat} (hg : Going s k) : k < 17 := by
  by_contra hk
  obtain ⟨t, ht, he⟩ := hg 17 (by omega)
  obtain ⟨u, hu, hf⟩ := atStep_iff.1 h.1
  rw [ht] at hu
  cases hu
  simp [he] at hf

theorem SoonOver.fair {s : State} (h : SoonOver s) : Undisturbed s ∧ BlockFair s ∧ CompleteFair s := by
  refine ⟨fun k t hg ht => ?_, fun k hg => ?_, fun k t hg _ _ => ?_⟩
  · obtain ⟨u, hu, hq⟩ := atStep_iff.1 (h.2 k (h.going hg)).1
    rw [ht] at hu
    cases hu
    simpa using hq
  · obtain ⟨j, -, hj⟩ := (h.2 k (h.going hg)).2.1
    obtain ⟨t, ht, hq⟩ := atStep_iff.1 hj
    exact ⟨j, t, ht, by simpa using hq⟩
  · obtain ⟨j, -, hj⟩ := (h.2 k (h.going hg)).2.2
    obtain ⟨u, hu, hq⟩ := atStep_iff.1 hj
    exact ⟨j, u, hu, by simpa using hq⟩

theorem soonOver_atIssue : SoonOver atIssue := by unfold SoonOver; decide

theorem witness_CommitTerminates_unlimited : atIssue.params.legal = true ∧ CommitInv atIssue ∧
    atIssue.phase ∉ [.idle, .encode, .fault] ∧ Undisturbed atIssue ∧ BlockFair atIssue ∧
    atIssue.params.pollLimit = none ∧ atIssue.params.nvCompletes = true ∧ NvCompletes atIssue :=
  ⟨by decide, commitInv_atIssue, by decide, soonOver_atIssue.fair.1, soonOver_atIssue.fair.2.1, rfl, rfl,
    fun _ => soonOver_atIssue.fair.2.2⟩

/-- `atIssue` with a limit of one read, which every wait meets. -/
def atIssueLimited : State :=
  { atIssue with params := { atIssue.params with pollLimit := some 1 } }

theorem soonOver_atIssueLimited : SoonOver atIssueLimited := by unfold SoonOver; decide

theorem witness_CommitTerminates_limited : atIssueLimited.params.legal = true ∧ CommitInv atIssueLimited ∧
    atIssueLimited.phase ∉ [.idle, .encode, .fault] ∧ Undisturbed atIssueLimited ∧ BlockFair atIssueLimited ∧
    atIssueLimited.params.pollLimit ≠ none := by
  refine ⟨by decide, ⟨⟨by decide, by decide, by decide, ?_⟩, commitInv_atIssue.seq, ⟨by decide, by decide, by decide, by decide, ?_⟩⟩,
    by decide, soonOver_atIssueLimited.fair.1, soonOver_atIssueLimited.fair.2.1, by decide⟩
  · exact commitInv_atIssue.ok.program
  · intro l _ h
    exact absurd h (by decide)

end Sys2Proof.Tests
end

/-! # The family 10_state.md: what a step can do, and R25's invariants

The proofs rest on one inversion: `BlockEffect` says everything an operation of the block can do, and `exec_cases` that
an instruction that answers a next state is one of these or a bus operation that the controller's contract covers. R25's
list is read per step of the sequence (`sequenceInv_issue`, `sequenceInv_wait`, `sequenceInv_next`), so that one argument
serves all five steps. -/

namespace Sys2Proof

/-! ### The operations of the block by step of the sequence -/

/-- R14, R71: the phase that issues step `k`. -/
def SeqStep.issuePhase : SeqStep → Phase
  | .s1 => .s1Issue
  | .s2 => .s2Issue
  | .s3 => .s3Issue
  | .s4 => .s4Issue
  | .s5 => .s5Issue

/-- R64: an instruction is an operation of the block, a bus operation, or the data format. -/
theorem Instr.kinds (i : Instr) :
    (∃ p : Phase, i = p.operation) ∨ (∃ op : BusOp, i = op.operation) ∨ ∃ w, i = .packedWord w := by
  cases i with
  | poll => exact .inl ⟨.idle, rfl⟩
  | encode => exact .inl ⟨.encode, rfl⟩
  | modeEraseEn => exact .inl ⟨.s1Issue, rfl⟩
  | wait1 => exact .inl ⟨.s1Wait, rfl⟩
  | eraseRegion => exact .inl ⟨.s2Issue, rfl⟩
  | wait2 => exact .inl ⟨.s2Wait, rfl⟩
  | modeWriteEn => exact .inl ⟨.s3Issue, rfl⟩
  | wait3 => exact .inl ⟨.s3Wait, rfl⟩
  | storeWord => exact .inl ⟨.s4Issue, rfl⟩
  | wait4 => exact .inl ⟨.s4Wait, rfl⟩
  | modeReadOnly => exact .inl ⟨.s5Issue, rfl⟩
  | wait5 => exact .inl ⟨.s5Wait, rfl⟩
  | ack => exact .inl ⟨.ack, rfl⟩
  | restart => exact .inl ⟨.restart, rfl⟩
  | halt => exact .inl ⟨.fault, rfl⟩
  | packedWord w => exact .inr (.inr ⟨w, rfl⟩)
  | nvReady => exact .inr (.inl ⟨.idle, rfl⟩)
  | nvMode m => exact .inr (.inl ⟨.mode m, rfl⟩)
  | nvErase => exact .inr (.inl ⟨.erase, rfl⟩)
  | memWrite a v => exact .inr (.inl ⟨.write a v, rfl⟩)

/-- What is in flight once the controller has accepted a command (R37 to R39). -/
def BusOp.pending : BusOp → Machine.Pending
  | .idle => .none
  | .mode m => .mode m
  | .erase => .erase
  | .write a v => .program a v

namespace Machine

/-- R37 to R39, R43: the controller's contract covers this transfer. No command is no transfer. -/
def State.Covers (s : State) : BusOp → Prop
  | .idle => False
  | .mode _ => s.nvBusy = false
  | .erase => s.nvBusy = false ∧ s.nvMode = .eraseEnabled
  | .write a _ => s.nvBusy = false ∧ s.nvMode = .writeEnabled ∧ s.params.storable a = true

/-- The transfer that step `k` issues (R73, R75, R77, R79, R81). -/
def State.transfer (s : State) : SeqStep → BusOp
  | .s1 => .mode .eraseEnabled
  | .s2 => .erase
  | .s3 => .mode .writeEnabled
  | .s4 => .write s.params.configAddr s.W
  | .s5 => .mode .readOnly

/-- The state after the issue of step `k` (R73, R75, R77, R79, R81). -/
def State.issue (s : State) (k : SeqStep) : State :=
  (s.quiet.accept (s.transfer k) (s.transfer k).pending).enterWait k

/-! ### What an instruction can do -/

/-- A bus operation answers a next state when it only samples the flag (R40) or the contract covers it (R37 to R39). -/
theorem exec_busOp_eq_next {op : BusOp} {s t : State} :
    exec op.operation s = .next t ↔
      (op = .idle ∧ t = s.quiet) ∨ (s.Covers op ∧ t = s.quiet.accept op op.pending) := by
  cases op with
  | idle => simp [BusOp.operation, exec, execNvReady, State.Covers, eq_comm]
  | mode m => simp [BusOp.operation, exec, execNvMode, busNvMode_eq_next, State.Covers, BusOp.pending]
  | erase => simp [BusOp.operation, exec, execNvErase, busNvErase_eq_next, State.Covers, BusOp.pending]
  | write a v => simp [BusOp.operation, exec, execMemWrite, busMemWrite_eq_next, State.Covers, BusOp.pending]

/-- An issue answers a next state exactly when the contract covers its transfer. -/
theorem exec_issue_eq_next {k : SeqStep} {s t : State} :
    exec k.issuePhase.operation s = .next t ↔ s.Covers (s.transfer k) ∧ t = s.issue k := by
  cases k with
  | s1 => exact modeIssue_eq_next
  | s2 => exact execEraseRegion_eq_next
  | s3 => exact modeIssue_eq_next
  | s4 => exact execStoreWord_eq_next
  | s5 => exact modeIssue_eq_next

theorem exec_wait (k : SeqStep) (s : State) : exec k.waitPhase.operation s = .next (waitStep k s) := by
  cases k <;> rfl

/-- Everything the block's operation of a phase can do when it answers a next state. -/
inductive BlockEffect (s : State) : Phase → State → Prop where
  | poll : BlockEffect s .idle { s.quiet with
      latch := pollLatch s.latch s.sample
      phase := if pollRequest s.latch s.sample then .encode else .idle }
  | encode {w : Word} (h : Safety.PortsEncodeTo s.pins w) : BlockEffect s .encode (s.quiet.commitWord w)
  | overflow (f : Field) : BlockEffect s .encode (s.quiet.raise (.fieldOverflow f) .idle)
  | issue {k : SeqStep} (h : s.Covers (s.transfer k)) : BlockEffect s k.issuePhase (s.issue k)
  | ready {k : SeqStep} (h : s.nvBusy = false) : BlockEffect s k.waitPhase (s.waitReady k)
  | timeout {k : SeqStep} (h : s.nvBusy = true) : BlockEffect s k.waitPhase (s.waitTimeout k)
  | spin {k : SeqStep} (h : s.nvBusy = true) (hl : s.pollExpires = false) : BlockEffect s k.waitPhase (s.waitSpin k)
  | ack : BlockEffect s .ack { s.quiet with diag := .ok, phase := .restart }
  | restart : BlockEffect s .restart { s.quiet with restartReq := true }
  | held (h : s.restartReq = true) : BlockEffect s .restart s.quiet
  | halt : BlockEffect s .fault s.quiet

theorem BlockEffect.ofEncode (s : State) : BlockEffect s .encode s.encodeStep := by
  rcases s.encodeStep_cases with ⟨w, hw, h⟩ | ⟨f, _, h⟩
  · exact h ▸ .encode hw
  · exact h ▸ .overflow f

theorem BlockEffect.ofIssue {k : SeqStep} {s t : State} (h : exec k.issuePhase.operation s = .next t) :
    BlockEffect s k.issuePhase t := by
  obtain ⟨hc, rfl⟩ := exec_issue_eq_next.1 h
  exact .issue hc

theorem BlockEffect.ofWait {k : SeqStep} {s t : State} (h : exec k.waitPhase.operation s = .next t) :
    BlockEffect s k.waitPhase t := by
  rw [exec_wait] at h
  cases h
  rcases waitStep_cases k s with ⟨hb, h⟩ | ⟨hb, _, h⟩ | ⟨hb, hl, h⟩
  · exact h ▸ .ready hb
  · exact h ▸ .timeout hb
  · exact h ▸ .spin hb hl

theorem BlockEffect.ofRestart (s : State) :
    BlockEffect s .restart (if s.restartReq then s.quiet else { s.quiet with restartReq := true }) := by
  split
  · exact .held ‹_›
  · exact .restart

theorem BlockEffect.ofExec {p : Phase} {s t : State} (h : exec p.operation s = .next t) : BlockEffect s p t := by
  cases p with
  | idle => cases h; exact .poll
  | encode => cases h; exact .ofEncode s
  | s1Issue => exact ofIssue (k := .s1) h
  | s1Wait => exact ofWait (k := .s1) h
  | s2Issue => exact ofIssue (k := .s2) h
  | s2Wait => exact ofWait (k := .s2) h
  | s3Issue => exact ofIssue (k := .s3) h
  | s3Wait => exact ofWait (k := .s3) h
  | s4Issue => exact ofIssue (k := .s4) h
  | s4Wait => exact ofWait (k := .s4) h
  | s5Issue => exact ofIssue (k := .s5) h
  | s5Wait => exact ofWait (k := .s5) h
  | ack => cases h; exact .ack
  | restart => cases h; exact .ofRestart s
  | fault => cases h; exact .halt

/-- Everything an instruction that answers a next state can do. -/
theorem exec_cases {i : Instr} {s t : State} (h : exec i s = .next t) :
    (∃ p : Phase, i = p.operation ∧ BlockEffect s p t) ∨ (i = .nvReady ∧ t = s.quiet) ∨
      ∃ op, i = op.operation ∧ s.Covers op ∧ t = s.quiet.accept op op.pending := by
  rcases i.kinds with ⟨p, rfl⟩ | ⟨op, rfl⟩ | ⟨w, rfl⟩
  · exact .inl ⟨p, rfl, .ofExec h⟩
  · rcases exec_busOp_eq_next.1 h with ⟨rfl, rfl⟩ | ⟨hc, rfl⟩
    · exact .inr (.inl ⟨rfl, rfl⟩)
    · exact .inr (.inr ⟨op, rfl, hc, rfl⟩)
  · cases h

/-- The operation of a phase always answers a next state, unless it issues a transfer the contract does not cover. -/
theorem exec_operation_answers {p : Phase} {s : State}
    (h : ∀ k : SeqStep, p = k.issuePhase → s.Covers (s.transfer k)) : ∃ t, exec p.operation s = .next t := by
  cases p with
  | s1Issue => exact ⟨_, exec_issue_eq_next.2 ⟨h .s1 rfl, rfl⟩⟩
  | s2Issue => exact ⟨_, exec_issue_eq_next.2 ⟨h .s2 rfl, rfl⟩⟩
  | s3Issue => exact ⟨_, exec_issue_eq_next.2 ⟨h .s3 rfl, rfl⟩⟩
  | s4Issue => exact ⟨_, exec_issue_eq_next.2 ⟨h .s4 rfl, rfl⟩⟩
  | s5Issue => exact ⟨_, exec_issue_eq_next.2 ⟨h .s5 rfl, rfl⟩⟩
  | idle | encode | s1Wait | s2Wait | s3Wait | s4Wait | s5Wait | ack | restart | fault => exact ⟨_, rfl⟩

/-! ### The fields of `issue` and `complete` -/

@[simp] theorem State.issue_latch (s : State) (k : SeqStep) : (s.issue k).latch = s.latch := rfl
@[simp] theorem State.issue_phase (s : State) (k : SeqStep) : (s.issue k).phase = k.waitPhase := rfl
@[simp] theorem State.issue_wstate (s : State) (k : SeqStep) : (s.issue k).wstate = s.wstate := rfl
@[simp] theorem State.issue_W (s : State) (k : SeqStep) : (s.issue k).W = s.W := rfl
@[simp] theorem State.issue_pollcnt (s : State) (k : SeqStep) : (s.issue k).pollcnt = 0 := rfl
@[simp] theorem State.issue_err (s : State) (k : SeqStep) : (s.issue k).err = s.err := rfl
@[simp] theorem State.issue_restartReq (s : State) (k : SeqStep) : (s.issue k).restartReq = s.restartReq := rfl
@[simp] theorem State.issue_nvMode (s : State) (k : SeqStep) : (s.issue k).nvMode = s.nvMode := rfl
@[simp] theorem State.issue_nvBusy (s : State) (k : SeqStep) : (s.issue k).nvBusy = true := rfl
@[simp] theorem State.issue_nvPending (s : State) (k : SeqStep) :
    (s.issue k).nvPending = (s.transfer k).pending := rfl
@[simp] theorem State.issue_mem (s : State) (k : SeqStep) : (s.issue k).mem = s.mem := rfl
@[simp] theorem State.issue_pins (s : State) (k : SeqStep) : (s.issue k).pins = s.pins := rfl
@[simp] theorem State.issue_turn (s : State) (k : SeqStep) : (s.issue k).turn = s.turn := rfl
@[simp] theorem State.issue_script (s : State) (k : SeqStep) : (s.issue k).script = s.script := rfl
@[simp] theorem State.issue_draws (s : State) (k : SeqStep) : (s.issue k).draws = s.draws := rfl
@[simp] theorem State.issue_params (s : State) (k : SeqStep) : (s.issue k).params = s.params := rfl

@[simp] theorem complete_latch (s : State) : (complete s).latch = s.latch := by unfold complete; split <;> simp
@[simp] theorem complete_phase (s : State) : (complete s).phase = s.phase := by unfold complete; split <;> simp
@[simp] theorem complete_wstate (s : State) : (complete s).wstate = s.wstate := by unfold complete; split <;> simp
@[simp] theorem complete_W (s : State) : (complete s).W = s.W := by unfold complete; split <;> simp
@[simp] theorem complete_pollcnt (s : State) : (complete s).pollcnt = s.pollcnt := by
  unfold complete; split <;> simp
@[simp] theorem complete_restartReq (s : State) : (complete s).restartReq = s.restartReq := by
  unfold complete; split <;> simp
@[simp] theorem complete_params (s : State) : (complete s).params = s.params := by unfold complete; split <;> simp

end Machine

namespace Safety

open Machine

/-! ### `StateOk` along a step -/

/-- `StateOk` depends on the controller, the region and the parameters alone. -/
theorem StateOk.congr {s t : State} (h : StateOk s) (hb : t.nvBusy = s.nvBusy) (hp : t.nvPending = s.nvPending)
    (hm : t.mem = s.mem) (hq : t.params = s.params) : StateOk t where
  wf := hm ▸ h.wf
  inside := by rw [hm, hq]; exact h.inside
  busy := by rw [hb, hp]; exact h.busy
  program := by rw [hp, hq]; exact h.program

/-- A transfer the contract covers puts an operation in flight that `StateOk` allows. -/
theorem StateOk.accept {s : State} {op : BusOp} (h : StateOk s) (hc : s.Covers op) :
    StateOk (s.quiet.accept op op.pending) := by
  refine ⟨h.wf, h.inside, ?_, ?_⟩
  · cases op with
    | idle => exact hc.elim
    | mode _ | erase | write _ _ => simp [BusOp.pending]
  · cases op with
    | write a v =>
      obtain ⟨_, _, ha⟩ := hc
      intro a' v' hp
      cases hp
      exact ha
    | idle | mode _ | erase => simp [BusOp.pending]

theorem StateOk.blockEffect {p : Phase} {s t : State} (h : StateOk s) (he : BlockEffect s p t) : StateOk t := by
  cases he with
  | issue hc => exact (h.accept hc).congr rfl rfl rfl rfl
  | poll | encode _ | overflow _ | ready _ | timeout _ | spin _ _ | ack | restart | held _ | halt =>
    exact h.congr (by simp) (by simp) (by simp) (by simp)

theorem StateOk.exec {i : Instr} {s t : State} (h : StateOk s) (he : exec i s = .next t) : StateOk t := by
  rcases exec_cases he with ⟨p, _, hp⟩ | ⟨_, rfl⟩ | ⟨op, _, hc, rfl⟩
  · exact h.blockEffect hp
  · exact h.congr rfl rfl rfl rfl
  · exact h.accept hc

/-- R41: what lands in the region keeps the canonical form and stays inside it. -/
theorem StateOk.land {s : State} (h : StateOk s) :
    Memory.wf s.land.mem ∧ ∀ c ∈ s.land.mem, s.params.regionBase.toNat ≤ c.1 ∧ c.1 < s.params.regionEnd := by
  cases hp : s.nvPending with
  | none | mode _ =>
    simp only [State.land, hp]
    exact ⟨h.wf, h.inside⟩
  | erase =>
    simp only [State.land, hp]
    refine ⟨Memory.wf_eraseWords _ _ _ h.wf, fun c hc => ?_⟩
    rcases Memory.mem_eraseWords hc with hc | hc
    · simpa [Params.wordAddr, Params.regionEnd] using hc
    · exact h.inside c hc
  | program a v =>
    simp only [State.land, hp]
    refine ⟨wf_programWord _ _ _ h.wf, fun c hc => ?_⟩
    have hin := Params.programAddr_inside (h.program a v hp)
    rcases mem_programWord hc with hc | hc
    · omega
    · exact h.inside c hc

theorem StateOk.complete {s : State} (h : StateOk s) : StateOk (complete s) := by
  cases hb : s.nvBusy with
  | false => rw [complete_idle hb]; exact h.congr rfl rfl rfl rfl
  | true =>
    obtain ⟨hwf, hin⟩ := h.land
    rw [complete_busy hb]
    exact ⟨hwf, by simpa using hin, by simp, by simp⟩

theorem StateOk.abandon {s : State} (h : StateOk s) (fate : ControllerFate) : StateOk (s.abandon fate) := by
  unfold State.abandon
  split
  · exact h.congr rfl rfl rfl rfl
  · refine ⟨?_, fun c hc => ?_, by simp, by simp⟩
    · show Memory.wf (if s.nvBusy then _ else _)
      split
      · exact Memory.wf_forget _ _ h.wf
      · exact h.wf
    · have hc : c ∈ s.mem := by
        dsimp only at hc
        split at hc
        · exact Memory.mem_forget hc
        · exact hc
      exact h.inside c hc

theorem StateOk.platformReset {s : State} (h : StateOk s) (fate : ControllerFate) :
    StateOk (platformReset fate s) := by
  unfold Machine.platformReset
  split
  · exact (h.abandon fate).congr rfl rfl rfl rfl
  · exact h.congr rfl rfl rfl rfl

theorem StateOk.advance {s : State} (h : StateOk s) : StateOk (advance s) :=
  h.congr (by simp) (by simp) (by simp) (by simp)

/-- R36, R39, R31: whoever moves, a step keeps `StateOk`. -/
theorem StateOk.step {s t : State} (h : StateOk s) (hst : step s = .next t) : StateOk t := by
  obtain ⟨_, ⟨_, u, hu, rfl⟩ | ⟨_, rfl⟩ | ⟨fate, _, rfl⟩ | ⟨op, u, _, _, hu, rfl⟩⟩ := step_cases hst
  · exact (h.exec hu).advance
  · exact h.complete.advance
  · exact (h.platformReset fate).advance
  · exact StateOk.advance ((h.exec hu).congr rfl rfl rfl rfl)

end Safety

/-! ### R25's list by step of the sequence -/

/-- The mode register when step `k` is issued (R25 items 2 to 4). -/
def SeqStep.modeBefore : SeqStep → Mode
  | .s1 => .readOnly
  | .s2 => .eraseEnabled
  | .s3 => .eraseEnabled
  | .s4 => .writeEnabled
  | .s5 => .writeEnabled

/-- The mode register when the operation of step `k` has completed. -/
def SeqStep.modeAfter : SeqStep → Mode
  | .s1 => .eraseEnabled
  | .s2 => .eraseEnabled
  | .s3 => .writeEnabled
  | .s4 => .writeEnabled
  | .s5 => .readOnly

/-- `confirm_k` takes the shadow where the mode register is by then. -/
@[simp] theorem Machine.confirmed_modeBefore (k : SeqStep) : Machine.confirmed k k.modeBefore = k.modeAfter := by
  cases k <;> rfl

namespace Safety

open Machine

/-- The region at the end of a commit: the target holds `W`, every other word is erased (R25 items 5 and 6). -/
def Committed (s : State) : Prop :=
  OthersErased s ∧ Holds s s.params.target s.W

/-- What is known of the region when step `k` is issued. -/
def RegionBefore (s : State) : SeqStep → Prop
  | .s1 | .s2 => True
  | .s3 | .s4 => AllErased s
  | .s5 => Committed s

/-- What is known of the region when the operation of step `k` has completed. -/
def RegionAfter (s : State) : SeqStep → Prop
  | .s1 => True
  | .s2 | .s3 => AllErased s
  | .s4 | .s5 => Committed s

theorem sequenceInv_issue {s : State} {k : SeqStep} (hp : s.phase = k.issuePhase) :
    SequenceInv s ↔ s.wstate = k.modeBefore ∧ AtRest s k.modeBefore ∧ RegionBefore s k := by
  unfold SequenceInv
  rw [hp]
  cases k <;> simp [SeqStep.issuePhase, SeqStep.modeBefore, RegionBefore, Committed]

theorem sequenceInv_wait {s : State} {k : SeqStep} (hp : s.phase = k.waitPhase) :
    SequenceInv s ↔ s.wstate = k.modeBefore ∧
      ((InFlight s (s.transfer k).pending k.modeBefore ∧ RegionBefore s k) ∨
        (AtRest s k.modeAfter ∧ RegionAfter s k)) := by
  unfold SequenceInv
  rw [hp]
  cases k <;>
    simp [SeqStep.waitPhase, SeqStep.modeBefore, SeqStep.modeAfter, State.transfer, BusOp.pending, RegionBefore,
      RegionAfter, Committed] <;> tauto

theorem sequenceInv_next {s : State} {k : SeqStep} (hp : s.phase = k.nextPhase) :
    SequenceInv s ↔ s.wstate = k.modeAfter ∧ AtRest s k.modeAfter ∧ RegionAfter s k := by
  unfold SequenceInv
  rw [hp]
  cases k <;> simp [SeqStep.nextPhase, SeqStep.modeAfter, RegionAfter, Committed]

/-- The phases in which no sequence is under way: a reset there finds the controller at rest in read-only mode. -/
theorem SequenceInv.atRest {s : State} (h : SequenceInv s) (hp : s.phase.midSequence = false) :
    s.wstate = .readOnly ∧ AtRest s .readOnly := by
  unfold SequenceInv at h
  cases hq : s.phase with
  | idle | encode | s1Issue => simpa only [hq] using h
  | ack | restart =>
    simp only [hq] at h
    exact ⟨h.1, h.2.1⟩
  | s1Wait | s2Issue | s2Wait | s3Issue | s3Wait | s4Issue | s4Wait | s5Issue | s5Wait | fault =>
    simp [hq, Phase.midSequence] at hp

/-- Only a wait, or the fault state, finds the controller busy. -/
theorem SequenceInv.waits_of_busy {s : State} (h : SequenceInv s) (hb : s.nvBusy = true) :
    s.phase = .fault ∨ ∃ k : SeqStep, s.phase = k.waitPhase := by
  unfold SequenceInv AtRest at h
  cases hq : s.phase with
  | s1Wait => exact .inr ⟨.s1, rfl⟩
  | s2Wait => exact .inr ⟨.s2, rfl⟩
  | s3Wait => exact .inr ⟨.s3, rfl⟩
  | s4Wait => exact .inr ⟨.s4, rfl⟩
  | s5Wait => exact .inr ⟨.s5, rfl⟩
  | fault => exact .inl rfl
  | idle | encode | s1Issue | s2Issue | s3Issue | s4Issue | s5Issue | ack | restart => simp [hq, hb] at h

/-- The sequence's invariant speaks of the phase, `wstate`, `W`, the controller, the region and the parameters alone. -/
theorem SequenceInv.congr {s t : State} (h : SequenceInv s) (hp : t.phase = s.phase) (hw : t.wstate = s.wstate)
    (hW : t.W = s.W) (hm : t.nvMode = s.nvMode) (hb : t.nvBusy = s.nvBusy) (ho : t.nvPending = s.nvPending)
    (hr : t.mem = s.mem) (hq : t.params = s.params) : SequenceInv t := by
  unfold SequenceInv AtRest InFlight AllErased OthersErased Holds at *
  rw [hp, hw, hW, hm, hb, ho, hr, hq]
  exact h

/-- What is known of the region depends on the region, `W` and the parameters alone. -/
theorem regionBefore_congr {s t : State} (k : SeqStep) (hW : t.W = s.W) (hr : t.mem = s.mem)
    (hq : t.params = s.params) : RegionBefore t k ↔ RegionBefore s k := by
  cases k <;> simp [RegionBefore, Committed, AllErased, OthersErased, Holds, hW, hr, hq]

theorem regionAfter_congr {s t : State} (k : SeqStep) (hW : t.W = s.W) (hr : t.mem = s.mem)
    (hq : t.params = s.params) : RegionAfter t k ↔ RegionAfter s k := by
  cases k <;> simp [RegionAfter, Committed, AllErased, OthersErased, Holds, hW, hr, hq]

end Safety

/-! ### The word of ENCODE, and the completion of an operation (R53, R41) -/

namespace Machine

/-- R53: no reserved bit is set in a word that ENCODE packs. -/
theorem packFields_reservedBits (r : Record) : packFields r &&& 0xFF000300#32 = 0#32 := by
  ext i hi
  simp only [packFields, BitVec.getElem_and, BitVec.getElem_or]
  interval_cases i <;> simp

/-- R65: what the encoder accepts is a packed record. -/
theorem encodeRecord_packs {o m st sp w : Word} (h : encodeRecord o m st sp = .ok w) : ∃ r, w = packFields r := by
  unfold encodeRecord at h
  split_ifs at h
  cases h
  exact ⟨_, rfl⟩

/-- A mode change that completes touches the mode register alone (R41). -/
theorem complete_mode {s : State} {m : Mode} (hb : s.nvBusy = true) (hp : s.nvPending = .mode m) :
    (complete s).nvMode = m ∧ (complete s).mem = s.mem := by
  simp [complete_busy hb, State.land, hp]

/-- An erase or a program leaves the mode register alone (R41). -/
theorem complete_nvMode {s : State} (hp : ∀ m, s.nvPending ≠ .mode m) : (complete s).nvMode = s.nvMode := by
  unfold complete State.land
  split
  · cases h : s.nvPending with
    | mode m => exact absurd h (hp m)
    | none | erase | program _ _ => simp
  · rfl

end Machine

namespace Safety

open Machine

theorem PortsEncodeTo.reservedBits {p : Pins} {w : Word} (h : PortsEncodeTo p w) : w &&& 0xFF000300#32 = 0#32 := by
  obtain ⟨r, rfl⟩ := encodeRecord_packs h
  exact packFields_reservedBits r

/-- R41, R38: an erase that completes leaves every word of the region erased. -/
theorem allErased_complete {s : State} (hb : s.nvBusy = true) (hp : s.nvPending = .erase) :
    AllErased (complete s) := by
  intro i hi
  rw [complete_params] at hi
  have hm : (complete s).mem =
      Memory.eraseWords s.mem (s.params.wordAddr 0) s.params.erasedWord s.params.regionWords := by
    simp [complete_busy hb, State.land, hp]
  have ha : s.params.wordAddr i = s.params.wordAddr 0 + 4 * i := by simp [Params.wordAddr]
  rw [Holds, hm, complete_params, ha]
  exact Memory.readWord_eraseWords _ _ _ hi

/-- R41, R39: over an erased region, the store of `W` to `CONFIG_ADDR` that completes is a commit. -/
theorem committed_complete {s : State} (hl : s.params.legal = true) (hb : s.nvBusy = true)
    (hp : s.nvPending = .program s.params.configAddr s.W) (he : AllErased s) : Committed (complete s) := by
  have hm : (complete s).mem = Memory.writeWord s.mem (s.params.wordAddr s.params.target) s.W := by
    have ht : Memory.readWord s.mem (s.params.wordAddr s.params.target) = some s.params.erasedWord :=
      he _ (Params.target_lt hl)
    simp [complete_busy hb, State.land, hp, programWord, Params.programAddr_configAddr, ht]
  constructor
  · intro i hi hne
    rw [complete_params] at hi hne
    rw [Holds, hm, complete_params, Memory.readWord_writeWord_other _ _ (s.params.wordAddr_apart hne)]
    exact he i hi
  · rw [Holds, hm, complete_params, complete_W]
    exact Memory.readWord_writeWord_same ..

theorem complete_atRest {s : State} {m : Mode} (hb : s.nvBusy = true) (hm : (complete s).nvMode = m) :
    AtRest (complete s) m := by
  refine ⟨?_, ?_, hm⟩ <;> simp [complete_busy hb]

/-- R41: when the operation of step `k` completes, the controller and the region are as the next step needs them. -/
theorem InFlight.lands {s : State} {k : SeqStep} (hl : s.params.legal = true)
    (hf : InFlight s (s.transfer k).pending k.modeBefore) (hr : RegionBefore s k) :
    AtRest (complete s) k.modeAfter ∧ RegionAfter (complete s) k := by
  obtain ⟨hb, hp, hm⟩ := hf
  cases k with
  | s1 => exact ⟨complete_atRest hb (complete_mode hb hp).1, trivial⟩
  | s2 => exact ⟨complete_atRest hb ((complete_nvMode (by simp [hp, State.transfer, BusOp.pending])).trans hm),
      allErased_complete hb hp⟩
  | s3 =>
    obtain ⟨hmode, hmem⟩ := complete_mode hb hp
    exact ⟨complete_atRest hb hmode, (regionAfter_congr .s3 (by simp) hmem (by simp)).2 hr⟩
  | s4 => exact ⟨complete_atRest hb ((complete_nvMode (by simp [hp, State.transfer, BusOp.pending])).trans hm),
      committed_complete hl hb hp hr⟩
  | s5 =>
    obtain ⟨hmode, hmem⟩ := complete_mode hb hp
    exact ⟨complete_atRest hb hmode, (regionAfter_congr .s5 (by simp) hmem (by simp)).2 hr⟩

/-! ### R25's list along a step -/

/-- At the issue of step `k` the contract covers its transfer (R25 items 2 to 4, R43). -/
theorem SequenceInv.covers {s : State} {k : SeqStep} (h : SequenceInv s) (hl : s.params.legal = true)
    (hp : s.phase = k.issuePhase) : s.Covers (s.transfer k) := by
  obtain ⟨_, ⟨hb, _, hm⟩, _⟩ := (sequenceInv_issue hp).1 h
  cases k with
  | s1 | s3 | s5 => exact hb
  | s2 => exact ⟨hb, hm⟩
  | s4 => exact ⟨hb, hm, Params.storable_configAddr hl⟩

/-- Before the sequence the invariant asks for read-only mode at rest, and no more. -/
theorem sequenceInv_of_readOnly {s : State} (hp : s.phase ∈ [.idle, .encode, .s1Issue]) (hw : s.wstate = .readOnly)
    (hr : AtRest s .readOnly) : SequenceInv s := by
  simp only [List.mem_cons, List.not_mem_nil, or_false] at hp
  unfold SequenceInv
  rcases hp with hp | hp | hp <;> rw [hp] <;> exact ⟨hw, hr⟩

theorem SequenceInv.ready {s : State} {k : SeqStep} (h : SequenceInv s) (hp : s.phase = k.waitPhase)
    (hb : s.nvBusy = false) : SequenceInv (s.waitReady k) := by
  obtain ⟨hw, ⟨⟨hbusy, _, _⟩, _⟩ | ⟨⟨_, ho, hm⟩, hr⟩⟩ := (sequenceInv_wait hp).1 h
  · simp [hb] at hbusy
  · refine (sequenceInv_next rfl).2 ⟨by simp [hw], ⟨by simpa, by simpa, by simpa⟩, ?_⟩
    exact (regionAfter_congr k (by simp) (by simp) (by simp)).2 hr

theorem SequenceInv.issue {s : State} {k : SeqStep} (h : SequenceInv s) (hp : s.phase = k.issuePhase) :
    SequenceInv (s.issue k) := by
  obtain ⟨hw, ⟨_, _, hm⟩, hr⟩ := (sequenceInv_issue hp).1 h
  exact (sequenceInv_wait rfl).2 ⟨hw, .inl ⟨⟨rfl, rfl, hm⟩, (regionBefore_congr k rfl rfl rfl).2 hr⟩⟩

theorem SequenceInv.blockEffect {p : Phase} {s t : State} (h : SequenceInv s) (hp : s.phase = p)
    (he : BlockEffect s p t) : SequenceInv t := by
  cases he with
  | poll =>
    obtain ⟨hw, hr⟩ := h.atRest (by rw [hp]; rfl)
    refine sequenceInv_of_readOnly ?_ hw hr
    dsimp only
    split <;> simp
  | encode _ | overflow _ =>
    obtain ⟨hw, hr⟩ := h.atRest (by rw [hp]; rfl)
    exact sequenceInv_of_readOnly (by simp) hw hr
  | issue _ => exact h.issue hp
  | ready hb => exact h.ready hp hb
  | timeout _ => exact trivial
  | spin _ _ => exact h.congr (by simp [hp]) rfl rfl rfl rfl rfl rfl rfl
  | ack => exact (sequenceInv_next (k := .s5) hp).1 h
  | restart | held _ | halt => exact h.congr rfl rfl rfl rfl rfl rfl rfl rfl

theorem SequenceInv.complete {s : State} (h : SequenceInv s) (hl : s.params.legal = true) :
    SequenceInv (complete s) := by
  cases hb : s.nvBusy with
  | false =>
    rw [complete_idle hb]
    exact h.congr rfl rfl rfl rfl rfl rfl rfl rfl
  | true =>
    obtain hp | ⟨k, hp⟩ := h.waits_of_busy hb
    · simp [SequenceInv, hp]
    · obtain ⟨hw, ⟨hf, hr⟩ | ⟨⟨hnot, _, _⟩, _⟩⟩ := (sequenceInv_wait hp).1 h
      · exact (sequenceInv_wait (by simpa)).2 ⟨by simpa, .inr (hf.lands hl hr)⟩
      · simp [hb] at hnot

/-- R132: a reset that cuts no sequence short finds the controller at rest and leaves it there. -/
theorem SequenceInv.platformReset {s : State} (h : SequenceInv s) (fate : ControllerFate)
    (hp : s.phase.midSequence = false) : SequenceInv (platformReset fate s) := by
  obtain ⟨_, hb, ho, hm⟩ := h.atRest hp
  rw [platformReset_whole fate (by simp [State.cutShort, hb, hp])]
  exact sequenceInv_of_readOnly (by simp) rfl ⟨hb, ho, hm⟩

theorem BlockInv.congr {s t : State} (h : BlockInv s) (hp : t.phase = s.phase) (hla : t.latch = s.latch)
    (hW : t.W = s.W) (hc : t.pollcnt = s.pollcnt) (hr : t.restartReq = s.restartReq) (hq : t.params = s.params) :
    BlockInv t where
  latched := by rw [hp, hla]; exact h.latched
  packed := by rw [hp, hW]; exact h.packed
  restart := by rw [hp, hr]; exact h.restart
  unlimited := by rw [hq, hc]; exact h.unlimited
  limited := by rw [hp, hq, hc]; exact h.limited

end Safety

@[simp] theorem SeqStep.issuePhase_ne_idle (k : SeqStep) : k.issuePhase ≠ .idle := by cases k <;> decide
@[simp] theorem SeqStep.issuePhase_ne_encode (k : SeqStep) : k.issuePhase ≠ .encode := by cases k <;> decide
@[simp] theorem SeqStep.waitPhase_ne_idle (k : SeqStep) : k.waitPhase ≠ .idle := by cases k <;> decide
@[simp] theorem SeqStep.waitPhase_ne_encode (k : SeqStep) : k.waitPhase ≠ .encode := by cases k <;> decide

namespace Machine

/-! ### Which operation writes which register (R10, the column "written by") -/

theorem pollLatch_of_request {l : Latch} {v : Level} (h : pollRequest l v = true) : pollLatch l v = .latched := by
  cases l <;> cases v <;> simp_all [pollRequest, pollLatch]

variable {p : Phase} {s t : State}

/-- R14: the operation of a phase leads to a phase that the table lists after it. -/
theorem BlockEffect.phase_mem (he : BlockEffect s p t) (hp : s.phase = p) : t.phase ∈ Safety.successors p := by
  cases he with
  | poll =>
    dsimp only
    split <;> simp [Safety.successors]
  | encode _ | overflow _ | ack => simp [Safety.successors]
  | restart | held _ | halt => simp [Safety.successors, hp]
  | @issue k _ => cases k <;> simp [Safety.successors, SeqStep.issuePhase, SeqStep.waitPhase]
  | @ready k _ => cases k <;> simp [Safety.successors, SeqStep.nextPhase, SeqStep.waitPhase]
  | @timeout k _ | @spin k _ _ => cases k <;> simp [Safety.successors, SeqStep.waitPhase]

/-- R11, R88: `latch` is written by POLL alone, and a poll that requests leaves it latched. -/
theorem BlockEffect.latch_cases (he : BlockEffect s p t) :
    (p ≠ .idle ∧ t.latch = s.latch) ∨ (p = .idle ∧ (t.phase ≠ .idle → t.latch = .latched)) := by
  cases he with
  | poll => exact .inr ⟨rfl, fun h => pollLatch_of_request (by simpa using h)⟩
  | encode _ | overflow _ | issue _ | ready _ | timeout _ | spin _ _ | ack | restart | held _ | halt =>
    exact .inl (by simp)

/-- R12, R96, R98: `W` is written by ENCODE alone, which goes back to P_IDLE unless it has packed the ports into it. -/
theorem BlockEffect.W_cases (he : BlockEffect s p t) :
    (p ≠ .encode ∧ t.W = s.W) ∨ (p = .encode ∧ (t.phase ≠ .idle → Safety.PortsEncodeTo s.pins t.W)) := by
  cases he with
  | encode hw => exact .inr ⟨rfl, fun _ => hw⟩
  | overflow _ => exact .inr ⟨rfl, fun h => absurd rfl h⟩
  | poll | issue _ | ready _ | timeout _ | spin _ _ | ack | restart | held _ | halt => exact .inl (by simp)

/-- R15: `wstate` is written by a wait that confirms a mode change, alone. -/
theorem BlockEffect.wstate_cases (he : BlockEffect s p t) :
    t.wstate = s.wstate ∨ ∃ k : SeqStep, p = k.waitPhase ∧ t.wstate = confirmed k s.wstate := by
  cases he with
  | @ready k _ => exact .inr ⟨k, rfl, by simp⟩
  | poll | encode _ | overflow _ | issue _ | timeout _ | spin _ _ | ack | restart | held _ | halt => exact .inl rfl

/-- R17: `err` is written by ENCODE and the waits alone. -/
theorem BlockEffect.err_cases (he : BlockEffect s p t) :
    t.err = s.err ∨ p = .encode ∨ ∃ k : SeqStep, p = k.waitPhase := by
  cases he with
  | encode _ | overflow _ => exact .inr (.inl rfl)
  | @ready k _ | @timeout k _ | @spin k _ _ => exact .inr (.inr ⟨k, rfl⟩)
  | poll | issue _ | ack | restart | held _ | halt => exact .inl rfl

/-- R16: `pollcnt` is cleared by the issues and the ready answers, counts in the not-ready answers, and is written by
nothing else. -/
theorem BlockEffect.pollcnt_cases (he : BlockEffect s p t) :
    t.pollcnt = s.pollcnt ∨
      ∃ k : SeqStep, (p = k.issuePhase ∨ p = k.waitPhase) ∧ (t.pollcnt = 0 ∨ t.pollcnt = s.pollcntAfterBusy) := by
  cases he with
  | @issue k _ => exact .inr ⟨k, .inl rfl, .inl rfl⟩
  | @ready k _ => exact .inr ⟨k, .inr rfl, .inl rfl⟩
  | @timeout k _ | @spin k _ _ => exact .inr ⟨k, .inr rfl, .inr rfl⟩
  | poll | encode _ | overflow _ | ack | restart | held _ | halt => exact .inl rfl

/-- R83: a step that leads to a wait has cleared the counter, or has counted one more answer below the limit. -/
theorem BlockEffect.pollcnt_waiting (he : BlockEffect s p t) (hp : s.phase = p) (hw : Safety.waiting t.phase = true) :
    t.pollcnt = 0 ∨ (s.pollExpires = false ∧ t.pollcnt = s.pollcntAfterBusy) := by
  cases he with
  | issue _ | ready _ => exact .inl rfl
  | spin _ hl => exact .inr ⟨hl, rfl⟩
  | poll =>
    dsimp only at hw
    split at hw <;> simp [Safety.waiting] at hw
  | encode _ | overflow _ | timeout _ | ack => simp [Safety.waiting] at hw
  | restart | held _ | halt => simp [Safety.waiting, hp] at hw

/-- R27: `restart_req` is written by RESTART alone, and only to 1. -/
theorem BlockEffect.restartReq_cases (he : BlockEffect s p t) :
    t.restartReq = s.restartReq ∨ (p = .restart ∧ t.restartReq = true) := by
  cases he with
  | restart => exact .inr ⟨rfl, rfl⟩
  | poll | encode _ | overflow _ | issue _ | timeout _ | spin _ _ | ack | held _ | halt => exact .inl rfl
  | ready _ => exact .inl (by simp)

/-- The block's operations raise the busy flag or leave it; they never touch the mode register nor the region (R45). -/
theorem BlockEffect.controller (he : BlockEffect s p t) :
    (t.nvBusy ≠ s.nvBusy → t.nvBusy = true) ∧ t.nvMode = s.nvMode ∧ t.mem = s.mem := by
  cases he with
  | issue _ => exact ⟨fun _ => rfl, rfl, rfl⟩
  | poll | encode _ | overflow _ | ready _ | timeout _ | spin _ _ | ack | restart | held _ | halt => simp

theorem BlockEffect.sameWorld (he : BlockEffect s p t) : Safety.SameWorld s t := by
  cases he with
  | ready _ => simp [Safety.SameWorld]
  | poll | encode _ | overflow _ | issue _ | timeout _ | spin _ _ | ack | restart | held _ | halt =>
    exact ⟨rfl, rfl, rfl, rfl, rfl⟩

/-- R27: an instruction leaves `restart_req` alone, unless it is RESTART, which raises it. -/
theorem exec_restartReq {i : Instr} (h : exec i s = .next t) :
    t.restartReq = s.restartReq ∨ (i = .restart ∧ t.restartReq = true) := by
  rcases exec_cases h with ⟨p, rfl, he⟩ | ⟨_, rfl⟩ | ⟨op, _, _, rfl⟩
  · exact he.restartReq_cases.imp id fun ⟨hp, ht⟩ => ⟨hp ▸ rfl, ht⟩
  · exact .inl rfl
  · exact .inl rfl

/-- R16, R83: a not-ready answer below the limit leaves the counter below it. -/
theorem State.pollcntAfterBusy_lt {s : State} {l : Nat} (hl : s.params.pollLimit = some l) (he : s.pollExpires = false) :
    s.pollcntAfterBusy.toNat < l := by
  have hlt := State.pollExpires_eq_false.1 he l hl
  rw [State.pollcntAfterBusy_limited hl, BitVec.toNat_add]
  exact lt_of_le_of_lt (Nat.mod_le _ _) hlt

end Machine

namespace Safety

open Machine

/-! ### The block's own invariant along a step -/

theorem BlockInv.blockEffect {p : Phase} {s t : State} (h : BlockInv s) (hl : s.params.legal = true)
    (hp : s.phase = p) (he : BlockEffect s p t) : BlockInv t := by
  have hmem := he.phase_mem hp
  obtain ⟨_, _, _, _, hq⟩ := he.sameWorld
  refine ⟨fun hi => ?_, fun hi hn => ?_, fun hr => ?_, fun hn => ?_, fun l hlim hw => ?_⟩
  · rcases he.latch_cases with ⟨hp0, heq⟩ | ⟨_, hla⟩
    · exact heq ▸ h.latched (hp ▸ hp0)
    · exact hla hi
  · rcases he.W_cases with ⟨hp1, heq⟩ | ⟨_, hw⟩
    · have hp0 : p ≠ .idle := by
        rintro rfl
        simp [successors, hi, hn] at hmem
      exact heq ▸ h.packed (hp ▸ hp0) (hp ▸ hp1)
    · exact (hw hi).reservedBits
  · have hp2 : p = .restart := by
      rcases he.restartReq_cases with heq | ⟨hp2, _⟩
      · exact hp ▸ h.restart (heq ▸ hr)
      · exact hp2
    subst hp2
    simpa [successors] using hmem
  · rw [hq] at hn
    rcases he.pollcnt_cases with heq | ⟨_, _, h0 | hcnt⟩
    · exact heq ▸ h.unlimited hn
    · exact h0
    · rw [hcnt, State.pollcntAfterBusy_unlimited hn, h.unlimited hn]
  · rw [hq] at hlim
    obtain ⟨_, _, _, _, _, hlegal⟩ := (Params.legal_iff _).1 hl
    rcases he.pollcnt_waiting hp hw with h0 | ⟨hexp, hcnt⟩
    · rw [h0]
      exact (hlegal l hlim).1
    · rw [hcnt]
      exact State.pollcntAfterBusy_lt hlim hexp

/-- R126: the block's registers after a reset meet the invariant, whatever the state before. -/
theorem blockInv_resetBlock (s : State) : BlockInv s.resetBlock where
  latched := by simp
  packed := by simp
  restart := by simp
  unlimited := by simp
  limited := by simp [waiting]

theorem blockInv_platformReset (fate : ControllerFate) (s : State) : BlockInv (platformReset fate s) := by
  unfold platformReset
  split <;> exact blockInv_resetBlock _

/-! ### The invariant of R25 along a step -/

theorem CommitInv.congr {s t : State} (h : CommitInv s) (hb : SameBlock s t) (hm : t.nvMode = s.nvMode)
    (hbusy : t.nvBusy = s.nvBusy) (ho : t.nvPending = s.nvPending) (hr : t.mem = s.mem) (hq : t.params = s.params) :
    CommitInv t := by
  obtain ⟨hla, hp, hw, hW, hc, _, hreq⟩ := hb
  exact ⟨h.ok.congr hbusy ho hr hq, h.seq.congr hp hw hW hm hbusy ho hr hq, h.blk.congr hp hla hW hc hreq hq⟩

theorem CommitInv.advance {s : State} (h : CommitInv s) : CommitInv (advance s) :=
  h.congr (by simp [SameBlock]) (by simp) (by simp) (by simp) (by simp) (by simp)

theorem CommitInv.exec {s t : State} (h : CommitInv s) (hl : s.params.legal = true)
    (he : exec s.phase.operation s = .next t) : CommitInv t :=
  have hb := BlockEffect.ofExec he
  ⟨h.ok.blockEffect hb, h.seq.blockEffect rfl hb, h.blk.blockEffect hl rfl hb⟩

theorem CommitInv.complete {s : State} (h : CommitInv s) (hl : s.params.legal = true) : CommitInv (complete s) :=
  ⟨h.ok.complete, h.seq.complete hl, h.blk.congr (by simp) (by simp) (by simp) (by simp) (by simp) (by simp)⟩

theorem CommitInv.platformReset {s : State} (h : CommitInv s) (fate : ControllerFate)
    (hp : s.phase.midSequence = false) : CommitInv (platformReset fate s) :=
  ⟨h.ok.platformReset fate, h.seq.platformReset fate hp, blockInv_platformReset fate s⟩

/-- R25: every permitted step keeps the invariant. -/
theorem CommitInv.step {s t : State} (h : CommitInv s) (hperm : Permitted s) (hst : step s = .next t) :
    CommitInv t := by
  unfold Permitted at hperm
  obtain ⟨hl, ⟨_, u, hu, rfl⟩ | ⟨_, rfl⟩ | ⟨fate, ht, rfl⟩ | ⟨op, u, ht, _, hu, rfl⟩⟩ := step_cases hst
  · exact (h.exec hl hu).advance
  · exact (h.complete hl).advance
  · exact (h.platformReset fate (by simpa [ht] using hperm)).advance
  · obtain rfl : op = .idle := by simpa [ht] using hperm
    cases hu
    exact CommitInv.advance (h.congr ⟨rfl, rfl, rfl, rfl, rfl, rfl, rfl⟩ rfl rfl rfl rfl rfl)

end Safety

/-! ### The shadow registers feed nothing else (R15, R17) -/

namespace Machine

/-- `err` and `wstate` at the values given, everything else as it is. -/
def State.shadows (e : Err) (m : Mode) (s : State) : State :=
  { s with err := e, wstate := m }

/-- A state with what its shadows hold blotted out. -/
def State.blank (s : State) : State :=
  s.shadows .noError .readOnly

section
variable (s : State) (e : Err) (m : Mode)

@[simp] theorem State.shadows_nvBusy : (s.shadows e m).nvBusy = s.nvBusy := rfl
@[simp] theorem State.shadows_nvMode : (s.shadows e m).nvMode = s.nvMode := rfl
@[simp] theorem State.shadows_restartReq : (s.shadows e m).restartReq = s.restartReq := rfl
@[simp] theorem State.shadows_pins : (s.shadows e m).pins = s.pins := rfl
@[simp] theorem State.shadows_params : (s.shadows e m).params = s.params := rfl

theorem waitStep_shadows (k : SeqStep) : (waitStep k (s.shadows e m)).blank = (waitStep k s).blank := by
  rcases waitStep_cases k s with ⟨hb, h⟩ | ⟨hb, hl, h⟩ | ⟨hb, hl, h⟩ <;> rw [h]
  · rw [waitStep_ready k (s := s.shadows e m) hb]
    cases k <;> rfl
  · rw [waitStep_timeout k (s := s.shadows e m) hb hl]
    rfl
  · rw [waitStep_spin k (s := s.shadows e m) hb hl]
    rfl

theorem encodeStep_shadows : (s.shadows e m).encodeStep.blank = s.encodeStep.blank := by
  unfold State.encodeStep
  rw [State.shadows_pins]
  split <;> rfl

theorem execRestart_shadows :
    onNext State.blank (execRestart (s.shadows e m)) = onNext State.blank (execRestart s) := by
  unfold execRestart
  rw [State.shadows_restartReq]
  split <;> rfl

/-! The controller's answer to a transfer does not depend on the shadows, and keeps them. -/

theorem busNvMode_shadows (n : Mode) :
    busNvMode n (s.shadows e m) = onNext (State.shadows e m) (busNvMode n s) := by
  unfold busNvMode
  rw [State.shadows_nvBusy]
  split <;> rfl

theorem busNvErase_shadows : busNvErase (s.shadows e m) = onNext (State.shadows e m) (busNvErase s) := by
  unfold busNvErase
  rw [State.shadows_nvBusy, State.shadows_nvMode]
  split <;> rfl

theorem busMemWrite_shadows (a v : Word) :
    busMemWrite a v (s.shadows e m) = onNext (State.shadows e m) (busMemWrite a v s) := by
  unfold busMemWrite
  rw [State.shadows_nvBusy, State.shadows_nvMode, State.shadows_params]
  split <;> rfl

end

section
variable {e : Err} {m : Mode} {o o' : Host.Outcome State Fault Refusal}

theorem blank_of_shadows (h : o' = onNext (State.shadows e m) o) : onNext State.blank o' = onNext State.blank o := by
  subst h
  cases o <;> rfl

theorem blank_enterWait_of_shadows (k : SeqStep) (h : o' = onNext (State.shadows e m) o) :
    onNext State.blank (onNext (fun t => t.enterWait k) o') = onNext State.blank (onNext (fun t => t.enterWait k) o) := by
  subst h
  cases o <;> rfl

end

/-- R15, R17: whatever the shadows hold, an instruction does the same to everything else. -/
theorem exec_shadows (i : Instr) (s : State) (e : Err) (m : Mode) :
    onNext State.blank (exec i (s.shadows e m)) = onNext State.blank (exec i s) := by
  cases i with
  | encode => exact congrArg Host.Outcome.next (encodeStep_shadows s e m)
  | modeEraseEn => exact blank_enterWait_of_shadows .s1 (busNvMode_shadows s.quiet e m _)
  | eraseRegion => exact blank_enterWait_of_shadows .s2 (busNvErase_shadows s.quiet e m)
  | modeWriteEn => exact blank_enterWait_of_shadows .s3 (busNvMode_shadows s.quiet e m _)
  | storeWord => exact blank_enterWait_of_shadows .s4 (busMemWrite_shadows s.quiet e m _ _)
  | modeReadOnly => exact blank_enterWait_of_shadows .s5 (busNvMode_shadows s.quiet e m _)
  | wait1 => exact congrArg Host.Outcome.next (waitStep_shadows s e m .s1)
  | wait2 => exact congrArg Host.Outcome.next (waitStep_shadows s e m .s2)
  | wait3 => exact congrArg Host.Outcome.next (waitStep_shadows s e m .s3)
  | wait4 => exact congrArg Host.Outcome.next (waitStep_shadows s e m .s4)
  | wait5 => exact congrArg Host.Outcome.next (waitStep_shadows s e m .s5)
  | restart => exact execRestart_shadows s e m
  | nvMode n => exact blank_of_shadows (busNvMode_shadows s.quiet e m n)
  | nvErase => exact blank_of_shadows (busNvErase_shadows s.quiet e m)
  | memWrite a v => exact blank_of_shadows (busMemWrite_shadows s.quiet e m a v)
  | poll | ack | halt | nvReady | packedWord _ => rfl

end Machine

namespace Safety

open Machine

/-! ### What an observer sees of R25's items 5 and 6 -/

/-- A word that the operation in flight does not reach is seen as it is stored (R42). -/
theorem Holds.observed {s : State} {i : Nat} {w : Word} (h : Holds s i w)
    (ha : s.nvBusy = false ∨ (s.nvPending.affected s.params).2 ≤ s.params.wordAddr i ∨
      s.params.wordAddr i + 4 ≤ (s.nvPending.affected s.params).1) : s.observeWord i = some w := by
  rw [State.observeWord_eq fun j hj => ?_]
  · exact h
  · rcases ha with hb | ha
    · exact State.observeByte_ready hb _
    · exact State.observeByte_outside (by omega)

/-- Nothing in flight, or a mode change: every stored word is seen. -/
def RegionSeen (s : State) : Prop :=
  s.nvBusy = false ∨ ∃ m, s.nvPending = .mode m

theorem Holds.seen {s : State} {i : Nat} {w : Word} (h : Holds s i w) (hs : RegionSeen s) :
    s.observeWord i = some w := by
  refine h.observed ?_
  rcases hs with hb | ⟨m, hm⟩
  · exact .inl hb
  · exact .inr (.inl (by simp [hm, Pending.affected]))

theorem AtRest.regionSeen {s : State} {m : Mode} (h : AtRest s m) : RegionSeen s :=
  .inl h.1

theorem InFlight.regionSeen {s : State} {n m : Mode} (h : InFlight s (.mode n) m) : RegionSeen s :=
  .inr ⟨n, h.2.1⟩

variable {s : State}

/-- R25 item 5, as stored: from P_S3_ISSUE to P_S4_ISSUE the region is erased, and no operation hides it. -/
theorem SequenceInv.erased (h : SequenceInv s) (hp : s.phase ∈ [.s3Issue, .s3Wait, .s4Issue]) :
    AllErased s ∧ RegionSeen s := by
  simp only [List.mem_cons, List.not_mem_nil, or_false] at hp
  rcases hp with hp | hp | hp
  · obtain ⟨_, hr, he⟩ := (sequenceInv_issue (k := .s3) hp).1 h
    exact ⟨he, hr.regionSeen⟩
  · obtain ⟨_, ⟨hf, he⟩ | ⟨hr, he⟩⟩ := (sequenceInv_wait (k := .s3) hp).1 h
    · exact ⟨he, InFlight.regionSeen hf⟩
    · exact ⟨he, hr.regionSeen⟩
  · obtain ⟨_, hr, he⟩ := (sequenceInv_issue (k := .s4) hp).1 h
    exact ⟨he, hr.regionSeen⟩

/-- R25 item 6, as stored: from P_S5_ISSUE on the commit stands in the region, and no operation hides it. -/
theorem SequenceInv.committed (h : SequenceInv s) (hp : s.phase ∈ [.s5Issue, .s5Wait, .ack, .restart]) :
    Committed s ∧ RegionSeen s := by
  simp only [List.mem_cons, List.not_mem_nil, or_false] at hp
  rcases hp with hp | hp | hp | hp
  · obtain ⟨_, hr, hc⟩ := (sequenceInv_issue (k := .s5) hp).1 h
    exact ⟨hc, hr.regionSeen⟩
  · obtain ⟨_, ⟨hf, hc⟩ | ⟨hr, hc⟩⟩ := (sequenceInv_wait (k := .s5) hp).1 h
    · exact ⟨hc, InFlight.regionSeen hf⟩
    · exact ⟨hc, hr.regionSeen⟩
  · obtain ⟨_, hr, hc⟩ := (sequenceInv_next (k := .s5) hp).1 h
    exact ⟨hc, hr.regionSeen⟩
  · unfold SequenceInv at h
    rw [hp] at h
    obtain ⟨_, hr, hc⟩ := h
    exact ⟨hc, hr.regionSeen⟩

/-- R25 item 5 while the store of `W` is awaited: it reaches the target word and hides no other. -/
theorem SequenceInv.others_seen_s4Wait (h : SequenceInv s) (hp : s.phase = .s4Wait) {i : Nat}
    (hi : i < s.params.regionWords) (hne : i ≠ s.params.target) : s.observeWord i = some s.params.erasedWord := by
  obtain ⟨_, ⟨⟨_, ho, _⟩, he⟩ | ⟨hr, hothers, _⟩⟩ := (sequenceInv_wait (k := .s4) hp).1 h
  · refine Holds.observed (he i hi) (.inr ?_)
    have hapart := s.params.wordAddr_apart hne
    have haff : s.nvPending.affected s.params =
        (s.params.wordAddr s.params.target, s.params.wordAddr s.params.target + 4) := by rw [ho]; rfl
    rw [haff]
    exact hapart.symm
  · exact Holds.seen (hothers i hi hne) hr.regionSeen

theorem SequenceInv.others_seen (h : SequenceInv s) (hp : s.phase ∈ [.s4Wait, .s5Issue, .s5Wait, .ack, .restart])
    {i : Nat} (hi : i < s.params.regionWords) (hne : i ≠ s.params.target) :
    s.observeWord i = some s.params.erasedWord := by
  rcases List.mem_cons.1 hp with hp | hp
  · exact h.others_seen_s4Wait hp hi hne
  · obtain ⟨⟨hothers, _⟩, hseen⟩ := h.committed hp
    exact (hothers i hi hne).seen hseen

/-- R25 item 6: the target word is seen as `W`, at `CONFIG_ADDR` too. -/
theorem SequenceInv.target_seen (h : SequenceInv s) (hl : s.params.legal = true)
    (hp : s.phase ∈ [.s5Issue, .s5Wait, .ack, .restart]) :
    s.observeWord s.params.target = some s.W ∧ s.memRead s.params.configAddr = some s.W := by
  obtain ⟨⟨_, ht⟩, hseen⟩ := h.committed hp
  have hw := ht.seen hseen
  refine ⟨hw, ?_⟩
  rw [State.memRead, if_pos (Params.storable_configAddr hl)]
  exact hw

/-! ### R25 items 1 to 4 -/

/-- R25 item 1: outside the sequence, and when it is about to begin, the controller is ready in read-only mode. -/
theorem SequenceInv.readOnly (h : SequenceInv s) (hp : s.phase ∈ [.idle, .encode, .s1Issue, .ack, .restart]) :
    s.wstate = .readOnly ∧ s.nvMode = .readOnly ∧ s.nvBusy = false := by
  have hq : s.phase.midSequence = false := by
    simp only [List.mem_cons, List.not_mem_nil, or_false] at hp
    rcases hp with hp | hp | hp | hp | hp <;> rw [hp] <;> rfl
  obtain ⟨hw, hb, _, hm⟩ := h.atRest hq
  exact ⟨hw, hm, hb⟩

/-- R25 items 2 to 4: at the issue of step `k` the controller is ready in the mode that the step needs. -/
theorem SequenceInv.issue_mode (h : SequenceInv s) {k : SeqStep} (hp : s.phase = k.issuePhase) :
    s.wstate = k.modeBefore ∧ s.nvMode = k.modeBefore ∧ s.nvBusy = false := by
  obtain ⟨hw, ⟨hb, _, hm⟩, _⟩ := (sequenceInv_issue hp).1 h
  exact ⟨hw, hm, hb⟩

theorem SequenceInv.eraseEnabled (h : SequenceInv s) (hp : s.phase ∈ [.s2Issue, .s3Issue]) :
    s.wstate = .eraseEnabled ∧ s.nvMode = .eraseEnabled ∧ s.nvBusy = false := by
  simp only [List.mem_cons, List.not_mem_nil, or_false] at hp
  rcases hp with hp | hp
  · exact h.issue_mode (k := .s2) hp
  · exact h.issue_mode (k := .s3) hp

theorem SequenceInv.writeEnabled (h : SequenceInv s) (hp : s.phase ∈ [.s4Issue, .s5Issue]) :
    s.wstate = .writeEnabled ∧ s.nvMode = .writeEnabled ∧ s.nvBusy = false := by
  simp only [List.mem_cons, List.not_mem_nil, or_false] at hp
  rcases hp with hp | hp
  · exact h.issue_mode (k := .s4) hp
  · exact h.issue_mode (k := .s5) hp

/-- R25 item 4, R36: at most one operation is in flight, and only while the controller is busy. -/
theorem StateOk.ready_iff (h : StateOk s) : s.nvBusy = false ↔ s.nvPending = .none := by
  have hb := h.busy
  cases hn : s.nvBusy <;> simpa [hn] using hb

/-! ### The reset state -/

theorem stateOk_resetWith (p : Params) : StateOk (State.resetWith p) where
  wf := List.Pairwise.nil
  inside := by simp [State.resetWith]
  busy := by simp [State.resetWith]
  program := by simp [State.resetWith]

theorem commitInv_resetWith (p : Params) : CommitInv (State.resetWith p) where
  ok := stateOk_resetWith p
  seq := ⟨rfl, rfl, rfl, rfl⟩
  blk := by
    refine ⟨?_, ?_, ?_, ?_, ?_⟩ <;> simp [State.resetWith, waiting]

/-- Nothing is known of the region's words after reset (R31; log 8). -/
theorem observeWord_resetWith (p : Params) (i : Nat) : (State.resetWith p).observeWord i = none := by
  rw [State.observeWord_eq fun j _ => State.observeByte_ready rfl _]
  rfl

theorem sameBlock_advance (s : State) : SameBlock s (advance s) := by
  simp [SameBlock]

theorem sameController_advance (s : State) : SameController s (advance s) := by
  refine ⟨by simp, by simp, by simp, by simp, fun a => ?_⟩
  exact State.observeByte_congr (by simp) (by simp) (by simp) (by simp) a

end Safety

open Machine Safety

/-! ### The obligations -/

/-- Settles O42: each kind of permitted step keeps each part of the invariant. -/
theorem stepKeepsCommitInv : Obligations.StepKeepsCommitInv :=
  fun _ _ h hperm hst => h.step hperm hst

/-- Settles O43, item by item from the invariant. -/
theorem commitInvariants : Obligations.CommitInvariants := by
  intro s hl h
  refine ⟨h.seq.readOnly, h.seq.eraseEnabled, h.seq.writeEnabled, h.ok.ready_iff, fun hp i hi => ?_,
    fun hp i hi hne => h.seq.others_seen hp hi hne, h.seq.target_seen hl, h.blk.latched, h.blk.packed⟩
  obtain ⟨he, hseen⟩ := h.seq.erased hp
  exact (he i hi).seen hseen

/-- Settles O44: at an issue the contract covers the transfer, and every other operation answers anyway. -/
theorem blockNeverViolates : Obligations.BlockNeverViolates := by
  intro s hl h ht
  obtain ⟨t, he⟩ := exec_operation_answers fun k hp => h.seq.covers (k := k) hl hp
  exact ⟨advance t, by rw [step_block hl ht, he, onNext_next]⟩

/-- R10 for the block's own operations, one register after the other. -/
theorem writtenBy_block {p : Phase} {s t : State} (he : BlockEffect s p t) :
    (t.latch ≠ s.latch → p.operation = .poll) ∧ (t.W ≠ s.W → p.operation = .encode) ∧
    (t.wstate ≠ s.wstate → p.operation = .wait1 ∧ t.wstate = .eraseEnabled ∨
      p.operation = .wait3 ∧ t.wstate = .writeEnabled ∨ p.operation = .wait5 ∧ t.wstate = .readOnly) ∧
    (t.err ≠ s.err → p.operation ∈ [.encode, .wait1, .wait2, .wait3, .wait4, .wait5]) ∧
    (t.pollcnt ≠ s.pollcnt → p.operation ∈ [.modeEraseEn, .wait1, .eraseRegion, .wait2, .modeWriteEn, .wait3,
      .storeWord, .wait4, .modeReadOnly, .wait5]) ∧
    (t.restartReq ≠ s.restartReq → p.operation = .restart ∧ t.restartReq = true) := by
  refine ⟨fun hne => ?_, fun hne => ?_, fun hne => ?_, fun hne => ?_, fun hne => ?_, fun hne => ?_⟩
  · obtain ⟨_, heq⟩ | ⟨rfl, _⟩ := he.latch_cases
    · exact absurd heq hne
    · rfl
  · obtain ⟨_, heq⟩ | ⟨rfl, _⟩ := he.W_cases
    · exact absurd heq hne
    · rfl
  · obtain heq | ⟨k, rfl, hk⟩ := he.wstate_cases
    · exact absurd heq hne
    · cases k with
      | s1 => exact .inl ⟨rfl, hk⟩
      | s3 => exact .inr (.inl ⟨rfl, hk⟩)
      | s5 => exact .inr (.inr ⟨rfl, hk⟩)
      | s2 | s4 => exact absurd hk hne
  · obtain heq | rfl | ⟨k, rfl⟩ := he.err_cases
    · exact absurd heq hne
    · simp [Phase.operation]
    · cases k <;> simp [SeqStep.waitPhase, Phase.operation]
  · obtain heq | ⟨k, rfl | rfl, _⟩ := he.pollcnt_cases
    · exact absurd heq hne
    · cases k <;> simp [SeqStep.issuePhase, Phase.operation]
    · cases k <;> simp [SeqStep.waitPhase, Phase.operation]
  · obtain heq | ⟨rfl, ht⟩ := he.restartReq_cases
    · exact absurd heq hne
    · exact ⟨rfl, ht⟩

/-- Settles O45: the block's operations register by register; a bus operation writes no register of the block. -/
theorem writtenBy : Obligations.WrittenBy := by
  intro i s t h
  obtain ⟨p, rfl, he⟩ | ⟨rfl, rfl⟩ | ⟨op, rfl, _, rfl⟩ := exec_cases h
  · obtain ⟨hlatch, hW, hwstate, herr, hcnt, hreq⟩ := writtenBy_block he
    obtain ⟨hbusy, hmode, hmem⟩ := he.controller
    exact ⟨hlatch, hW, hwstate, herr, hcnt, hreq, hbusy, hmode, hmem, he.sameWorld⟩
  · simp [SameWorld]
  · simp [SameWorld]

/-- Settles O46 from the inversion of the block's operations. -/
theorem phaseSuccessors : Obligations.PhaseSuccessors := by
  intro s t ht hst
  obtain ⟨hl, _⟩ := step_cases hst
  rw [step_block hl ht] at hst
  obtain ⟨u, hu, rfl⟩ := onNext_eq_next.1 hst
  rw [advance_phase]
  exact (BlockEffect.ofExec hu).phase_mem rfl

/-- Settles O49: no step but the platform's writes 0 to the line. -/
theorem restartSticks : Obligations.RestartSticks := by
  intro s t hst hr
  have keeps {i : Instr} {u : State} (hu : exec i s = .next u) : u.restartReq = true := by
    rcases exec_restartReq hu with heq | ⟨_, h⟩
    · exact heq.trans hr
    · exact h
  obtain ⟨_, ⟨_, u, hu, rfl⟩ | ⟨_, rfl⟩ | ⟨fate, ht, _⟩ | ⟨op, u, _, _, hu, rfl⟩⟩ := step_cases hst
  · exact .inl (by simpa using keeps hu)
  · exact .inl (by simpa using hr)
  · exact .inr ⟨fate, ht⟩
  · exact .inl (by simpa using keeps hu)

/-- Settles O51: no branch of an operation tests a shadow, and what it writes is independent of them. -/
theorem shadowsUnread : Obligations.ShadowsUnread :=
  fun i s e m => exec_shadows i s e m

/-- Settles O36: the registers by evaluation, the region by what an observer sees of an empty store. -/
theorem resetState : Obligations.ResetState :=
  fun p => ⟨rfl, rfl, rfl, rfl, rfl, rfl, ⟨rfl, rfl⟩, ⟨rfl, rfl⟩, rfl, rfl, observeWord_resetWith p⟩

/-- Settles O38: the phase code decodes to the operation of the phase, which is what the block's step runs. -/
theorem stepRunsDecoded : Obligations.StepRunsDecoded := by
  refine ⟨fun s i hl ht hd => ?_, fun s => ?_⟩
  · rw [decode_phase_code] at hd
    cases hd
    exact step_block hl ht
  · exact ⟨sameBlock_advance s, sameController_advance s, advance_bus s, advance_diag s, advance_params s,
      fun _ _ h => advance_scripted h⟩

/-- Settles O41: the controller at rest in read-only mode meets the list for P_IDLE. -/
theorem resetMeetsInvariants : Obligations.ResetMeetsInvariants :=
  fun p => ⟨stateOk_resetWith p, commitInv_resetWith p⟩

/-- Settles O56: the wires are the encoding of the operation they present. -/
theorem portDecodes : Obligations.PortDecodes := by
  intro s
  rw [s.busWires_eq]
  exact decode_encodeOn_busOp ..

end Sys2Proof

/-! # The family 20_memory.md: the memory controller, the region it guards, and the end of a commit

A refusal is read off the controller's port, an acceptance off `State.accept`, a completion off what `State.land` does to
the region. The termination of a commit rests on a measure of its progress that no step of the block and the controller
lowers, and that the fairness premises make grow for ever in a run without an end. -/

namespace Sys2Proof

/-- R41: with an aligned region, an accepted program reaches the word at its own address. -/
theorem Params.programAddr_eq {p : Params} {a : Word} (hbase : p.regionBase.toNat % 4 = 0)
    (ha : p.storable a = true) : p.programAddr a = a.toNat := by
  obtain ⟨halign, hlo, _⟩ := (Params.storable_iff ..).1 ha
  unfold Params.programAddr Params.wordAddr
  omega

/-- R39: what keeps an address from being stored to. -/
theorem Params.storable_eq_false_iff {p : Params} {a : Word} : p.storable a = false ↔
    a.toNat % 4 ≠ 0 ∨ a.toNat < p.regionBase.toNat ∨ p.regionEnd ≤ a.toNat := by
  rw [← Bool.not_eq_true, Params.storable_iff]
  omega

/-- R64: an instruction selected at a phase is the operation of that phase. -/
theorem Instr.eq_operation_of_phase? {i : Instr} {p : Phase} (h : i.phase? = some p) : i = p.operation := by
  rcases i.kinds with ⟨q, rfl⟩ | ⟨op, rfl⟩ | ⟨w, rfl⟩
  · rw [Phase.operation_phase?, Option.some.injEq] at h
    rw [h]
  · simp at h
  · cases h

namespace Machine

/-! ### What the contract does not cover (R43) -/

theorem onNext_eq_fault {f : State → State} {o : Host.Outcome State Fault Refusal} {r : Fault} :
    onNext f o = .fault r ↔ o = .fault r := by
  cases o <;> simp [onNext]

theorem busNvMode_eq_fault {m : Mode} {s : State} :
    busNvMode m s = .fault .nvContractViolation ↔ s.nvBusy = true := by
  simp [busNvMode]

theorem busNvErase_eq_fault {s : State} :
    busNvErase s = .fault .nvContractViolation ↔ s.nvBusy = true ∨ s.nvMode ≠ .eraseEnabled := by
  cases hb : s.nvBusy <;> simp [busNvErase, hb]

theorem busMemWrite_eq_fault {a v : Word} {s : State} :
    busMemWrite a v s = .fault .nvContractViolation ↔
      s.nvBusy = true ∨ s.nvMode ≠ .writeEnabled ∨ s.params.storable a = false := by
  cases hb : s.nvBusy <;> simp [busMemWrite, hb, imp_iff_not_or]

/-! ### What an accepted transfer does, and what it leaves alone (R37 to R39) -/

@[simp] theorem State.issue_bus (s : State) (k : SeqStep) : (s.issue k).bus = s.transfer k := rfl

/-- R37 to R39: a transfer that the contract covers is taken. -/
theorem exec_busOp_of_covers {op : BusOp} {s : State} (hc : s.Covers op) :
    exec op.operation s = .next (s.quiet.accept op op.pending) :=
  exec_busOp_eq_next.2 (.inr ⟨hc, rfl⟩)

/-- The controller takes a transfer: what is in flight, and the frame (R36). -/
theorem State.accepted_accept (s : State) (op : BusOp) (p : Pending) :
    Safety.Accepted s (s.quiet.accept op p) op p := by
  simp [Safety.Accepted, Safety.NoEvent, Safety.SameBlock, Safety.SameWorld, State.diagKind]

/-- R42: a byte that the accepted operation does not reach is seen as before. -/
theorem State.observeByte_accept {s : State} {op : BusOp} {p : Pending} {a : Nat} (hb : s.nvBusy = false)
    (ha : a < (p.affected s.params).1 ∨ (p.affected s.params).2 ≤ a) :
    (s.quiet.accept op p).observeByte a = s.observeByte a := by
  rw [State.observeByte_outside (s := s.quiet.accept op p) ha, State.observeByte_ready hb]
  rfl

/-- R57: the command that an operation of the block presents is the transfer of the step it issues, if any. -/
theorem BlockEffect.bus_cases {s t : State} {p : Phase} (he : BlockEffect s p t) :
    t.bus = .idle ∨ ∃ k : SeqStep, p = k.issuePhase ∧ t.bus = s.transfer k := by
  cases he with
  | @issue k _ => exact .inr ⟨k, rfl, rfl⟩
  | ready _ => exact .inl (by simp)
  | poll | encode _ | overflow _ | timeout _ | spin _ _ | ack | restart | held _ | halt => exact .inl rfl

/-- R39: the block's only word store is STORE_WORD, of `W` to `CONFIG_ADDR`. -/
theorem exec_presents_write {i : Instr} {p : Phase} {s t : State} {a v : Word} (hi : i.phase? = some p)
    (h : exec i s = .next t) (hbus : t.bus = .write a v) : i = .storeWord ∧ a = s.params.configAddr ∧ v = s.W := by
  obtain rfl := Instr.eq_operation_of_phase? hi
  obtain hidle | ⟨k, rfl, hk⟩ := (BlockEffect.ofExec h).bus_cases
  · simp [hidle] at hbus
  · rw [hk] at hbus
    cases k with
    | s4 => cases hbus; exact ⟨rfl, rfl, rfl⟩
    | s1 | s2 | s3 | s5 => cases hbus

/-- R44: a new operation in flight is one whose transfer the contract covers. -/
theorem exec_nvPending_cases {i : Instr} {s t : State} (h : exec i s = .next t) :
    t.nvPending = s.nvPending ∨ ∃ op, s.Covers op ∧ t.nvPending = op.pending := by
  obtain ⟨p, rfl, he⟩ | ⟨_, rfl⟩ | ⟨op, _, hc, rfl⟩ := exec_cases h
  · cases he with
    | @issue k hc => exact .inr ⟨s.transfer k, hc, rfl⟩
    | ready _ => exact .inl (by simp)
    | poll | encode _ | overflow _ | timeout _ | spin _ _ | ack | restart | held _ | halt => exact .inl rfl
  · exact .inl rfl
  · exact .inr ⟨op, hc, rfl⟩

/-! ### Complete (R41) -/

@[simp] theorem complete_err (s : State) : (complete s).err = s.err := by unfold complete; split <;> simp
@[simp] theorem complete_pins (s : State) : (complete s).pins = s.pins := by unfold complete; split <;> simp
@[simp] theorem complete_turn (s : State) : (complete s).turn = s.turn := by unfold complete; split <;> simp
@[simp] theorem complete_script (s : State) : (complete s).script = s.script := by unfold complete; split <;> simp
@[simp] theorem complete_draws (s : State) : (complete s).draws = s.draws := by unfold complete; split <;> simp

/-- R41: after the controller's turn it is ready. -/
@[simp] theorem complete_nvBusy (s : State) : (complete s).nvBusy = false := by
  unfold complete
  split <;> simp_all

theorem complete_nvPending {s : State} (hb : s.nvBusy = true) : (complete s).nvPending = .none := by
  simp [complete_busy hb]

theorem sameBlock_complete (s : State) : Safety.SameBlock s (complete s) := by simp [Safety.SameBlock]

theorem sameWorld_complete (s : State) : Safety.SameWorld s (complete s) := by simp [Safety.SameWorld]

theorem complete_mem_erase {s : State} (hb : s.nvBusy = true) (hp : s.nvPending = .erase) :
    (complete s).mem = Memory.eraseWords s.mem s.params.regionBase.toNat s.params.erasedWord s.params.regionWords := by
  simp [complete_busy hb, State.land, hp, Params.wordAddr]

theorem complete_mem_program {s : State} {a v : Word} (hb : s.nvBusy = true) (hp : s.nvPending = .program a v) :
    (complete s).mem = programWord s.params a v s.mem := by
  simp [complete_busy hb, State.land, hp]

/-- R42, R41: a byte that the operation in flight does not reach is seen as before when it completes. -/
theorem observeByte_complete_outside {s : State} {a : Nat} (hb : s.nvBusy = true)
    (ha : a < (s.nvPending.affected s.params).1 ∨ (s.nvPending.affected s.params).2 ≤ a) :
    (complete s).observeByte a = s.observeByte a := by
  rw [State.observeByte_ready (complete_nvBusy s), State.observeByte_outside ha]
  cases hp : s.nvPending with
  | none => simp [complete_busy hb, State.land, hp]
  | mode m => rw [(complete_mode hb hp).2]
  | erase =>
    rw [complete_mem_erase hb hp]
    rw [hp] at ha
    exact Memory.read_eraseWords_outside _ _ ha
  | program b v =>
    rw [complete_mem_program hb hp]
    rw [hp] at ha
    exact read_programWord_other _ _ _ _ ha

/-- R41, R34: a program of an erased word stores it, the lowest byte first. -/
theorem read_complete_program {s : State} {a v : Word} (hb : s.nvBusy = true) (hp : s.nvPending = .program a v)
    (he : Memory.readWord s.mem (s.params.programAddr a) = some s.params.erasedWord) :
    Memory.readWord (complete s).mem (s.params.programAddr a) = some v ∧
      ∀ j < 4, Memory.read (complete s).mem (s.params.programAddr a + j) = some (byteOf v j) := by
  rw [complete_mem_program hb hp, programWord, if_pos he]
  exact ⟨Memory.readWord_writeWord_same .., fun j hj => Memory.read_writeWord_byte _ _ _ hj⟩

/-! ### Which steps change the stored bytes (R45, R132) -/

/-- Nothing is forgotten in an empty range. -/
@[simp] theorem Memory.forget_empty (m : Memory) : Memory.forget m 0 0 = m := by
  simp [Memory.forget]

/-- The operation in flight is one that disturbs the region (R42). -/
def State.disturbs (s : State) : Prop :=
  s.nvBusy = true ∧ (s.nvPending = .erase ∨ ∃ a v, s.nvPending = .program a v)

theorem State.disturbs_of_complete_mem {s : State} (h : (complete s).mem ≠ s.mem) : s.disturbs := by
  cases hb : s.nvBusy with
  | false => simp [complete_idle hb] at h
  | true =>
    refine ⟨hb, ?_⟩
    cases hp : s.nvPending with
    | none => simp [complete_busy hb, State.land, hp] at h
    | mode m => exact absurd (complete_mode hb hp).2 h
    | erase => exact .inl rfl
    | program a v => exact .inr ⟨a, v, rfl⟩

theorem State.disturbs_of_abandon_mem {s : State} {fate : ControllerFate} (h : (s.abandon fate).mem ≠ s.mem) :
    s.disturbs := by
  unfold State.abandon at h
  split at h
  · exact absurd rfl h
  · cases hb : s.nvBusy with
    | false => simp [hb] at h
    | true =>
      refine ⟨hb, ?_⟩
      cases hp : s.nvPending with
      | none | mode _ => simp [hb, hp, Pending.affected] at h
      | erase => exact .inl rfl
      | program a v => exact .inr ⟨a, v, rfl⟩

theorem State.disturbs_of_platformReset_mem {s : State} {fate : ControllerFate}
    (h : (platformReset fate s).mem ≠ s.mem) : s.disturbs := by
  unfold platformReset at h
  split at h
  · exact State.disturbs_of_abandon_mem h
  · exact absurd rfl h

@[simp] theorem platformReset_params (fate : ControllerFate) (s : State) :
    (platformReset fate s).params = s.params := by
  unfold platformReset
  split <;> simp

/-- R45: no instruction changes the stored bytes or the parameters. -/
theorem exec_mem_params {i : Instr} {s t : State} (h : exec i s = .next t) : t.mem = s.mem ∧ t.params = s.params := by
  obtain ⟨p, _, he⟩ | ⟨_, rfl⟩ | ⟨op, _, _, rfl⟩ := exec_cases h
  · obtain ⟨_, _, hmem⟩ := he.controller
    obtain ⟨_, _, _, _, hparams⟩ := he.sameWorld
    exact ⟨hmem, hparams⟩
  · exact ⟨rfl, rfl⟩
  · exact ⟨rfl, rfl⟩

end Machine

/-- R55: the phases of a step come in the order of their codes. -/
theorem SeqStep.issuePhase_lt_waitPhase (k : SeqStep) : k.issuePhase.code.toNat < k.waitPhase.code.toNat := by
  cases k <;> decide

theorem SeqStep.waitPhase_lt_nextPhase (k : SeqStep) : k.waitPhase.code.toNat < k.nextPhase.code.toNat := by
  cases k <;> decide

namespace Machine

open Safety

/-- R70: below a legal limit the counter does not wrap. -/
theorem State.toNat_pollcntAfterBusy {s : State} {l : Nat} (hlim : s.params.pollLimit = some l)
    (hl : s.params.legal = true) (he : s.pollExpires = false) : s.pollcntAfterBusy.toNat = s.pollcnt.toNat + 1 := by
  obtain ⟨_, _, _, _, _, hlegal⟩ := (Params.legal_iff _).1 hl
  have hroom := State.pollExpires_eq_false.1 he l hlim
  have hmax := (hlegal l hlim).2
  rw [State.pollcntAfterBusy_limited hlim, BitVec.toNat_add_of_lt (by simp; omega)]
  rfl

/-! ### A run and its next step -/

/-- One more step of a run is a step of the state it has reached. -/
theorem run_succ {k : Nat} {s t : State} (h : run k s = .next t) : run (k + 1) s = step t := by
  induction k generalizing s with
  | zero =>
    cases h
    simp only [run, Host.Core.run]
    cases hu : Sys2Proof.core.step t <;> exact hu.symm
  | succ k ih =>
    simp only [run, Host.Core.run] at h ⊢
    cases hu : Sys2Proof.core.step s with
    | next u =>
      rw [hu] at h
      exact ih h
    | fault r => simp [hu] at h
    | refused r => simp [hu] at h

/-! ### The progress of a commit (R14, R144) -/

/-- R144: a run ends where no step of the block is enabled, in success or in the fault state. -/
theorem State.blockEnabled_eq_false {s : State} : s.blockEnabled = false ↔ Final s ∨ Faulted s := by
  unfold State.blockEnabled Final Faulted
  cases s.phase <;> simp

/-- R14: past P_ENCODE no step of the block takes the phase back. -/
theorem code_le_of_mem_successors {p q : Phase} (h : q ∈ successors p) (hp : 2 ≤ p.code.toNat) :
    p.code.toNat ≤ q.code.toNat := by
  revert q
  cases p with
  | idle | encode => exact absurd hp (by decide)
  | s1Issue | s1Wait | s2Issue | s2Wait | s3Issue | s3Wait | s4Issue | s4Wait | s5Issue | s5Wait | ack | restart
  | fault => decide

theorem waits_of_fault_mem_successors {p : Phase} (h : Phase.fault ∈ successors p) :
    p = .fault ∨ ∃ k : SeqStep, p = k.waitPhase := by
  cases p with
  | fault => exact .inl rfl
  | s1Wait => exact .inr ⟨.s1, rfl⟩
  | s2Wait => exact .inr ⟨.s2, rfl⟩
  | s3Wait => exact .inr ⟨.s3, rfl⟩
  | s4Wait => exact .inr ⟨.s4, rfl⟩
  | s5Wait => exact .inr ⟨.s5, rfl⟩
  | idle | encode | s1Issue | s2Issue | s3Issue | s4Issue | s5Issue | ack | restart => simp [successors] at h

/-- R83: a wait gives up only when its counter reaches a limit. -/
theorem limited_of_waitStep_fault {k : SeqStep} {s : State} (h : (waitStep k s).phase = .fault) :
    s.params.pollLimit ≠ none := by
  intro hn
  obtain ⟨_, hw⟩ | ⟨_, hl, _⟩ | ⟨_, _, hw⟩ := waitStep_cases k s
  · rw [hw, State.waitReady_phase] at h
    cases k <;> cases h
  · simp [State.pollExpires, hn] at hl
  · rw [hw, State.waitSpin_phase] at h
    cases k <;> cases h

/-- R83, R103, R110: without a limit the block does not enter the fault state. -/
theorem limited_of_exec_fault {s t : State} (h : exec s.phase.operation s = .next t) (ht : t.phase = .fault) :
    s.phase = .fault ∨ s.params.pollLimit ≠ none := by
  have hmem := (BlockEffect.ofExec h).phase_mem rfl
  rw [ht] at hmem
  refine (waits_of_fault_mem_successors hmem).imp id fun ⟨k, hk⟩ => ?_
  rw [hk, exec_wait] at h
  cases h
  exact limited_of_waitStep_fault ht

/-- A step of the block in a commit that goes on takes it to a later phase, or is a not-ready answer below the limit. -/
theorem BlockEffect.progress {p : Phase} {s t : State} (he : BlockEffect s p t) (hp : s.phase = p)
    (h2 : 2 ≤ p.code.toNat) (hs : s.blockEnabled = true) (ht : t.blockEnabled = true) :
    p.code.toNat < t.phase.code.toNat ∨
      (s.nvBusy = true ∧ s.pollExpires = false ∧ ∃ k, t = s.waitSpin k ∧ p = k.waitPhase) := by
  cases he with
  | poll | encode _ | overflow _ => exact absurd h2 (by decide)
  | @issue k _ => exact .inl k.issuePhase_lt_waitPhase
  | @ready k _ => exact .inl k.waitPhase_lt_nextPhase
  | timeout _ => simp [State.blockEnabled] at ht
  | @spin k hb hl => exact .inr ⟨hb, hl, k, rfl, rfl⟩
  | ack =>
    have hlt : Phase.ack.code.toNat < Phase.restart.code.toNat := by decide
    exact .inl hlt
  | restart => simp [State.blockEnabled, hp] at ht
  | held h => simp [State.blockEnabled, hp, h] at hs
  | halt => simp [State.blockEnabled, hp] at hs

end Machine

namespace Safety

open Machine

/-! ### A commit on its way -/

/-- What every state of a commit from `s` meets once ENCODE has accepted it; it has failed only if there is a limit. -/
structure Underway (s t : State) : Prop where
  inv : CommitInv t
  params : t.params = s.params
  begun : 2 ≤ t.phase.code.toNat
  faulted : t.phase = .fault → s.params.pollLimit ≠ none

variable {s t u : State}

theorem Underway.start (h : CommitInv s) (hp : s.phase ∉ [.idle, .encode, .fault]) : Underway s s where
  inv := h
  params := rfl
  begun := by
    revert hp
    cases s.phase <;> decide
  faulted := fun hf => absurd (by simp [hf]) hp

/-- R25, R43: in a step of the block or the controller a commit goes on. -/
theorem Underway.step (h : Underway s t) (hl : s.params.legal = true) (ht : t.turn = .block ∨ t.turn = .controller) :
    ∃ u, step t = .next u ∧ Underway s u := by
  have hlt : t.params.legal = true := by rwa [h.params]
  rcases ht with ht | ht
  · obtain ⟨v, hv⟩ := exec_operation_answers fun k hp => h.inv.seq.covers (k := k) hlt hp
    have hq := (exec_mem_params hv).2
    have hst := step_block hlt ht
    rw [hv, onNext_next] at hst
    refine ⟨_, hst, h.inv.step (by simp [Permitted, ht]) hst, by simp [hq, h.params], ?_, fun hf => ?_⟩
    · rw [advance_phase]
      exact h.begun.trans (code_le_of_mem_successors ((BlockEffect.ofExec hv).phase_mem rfl) h.begun)
    · rw [advance_phase] at hf
      rcases limited_of_exec_fault hv hf with hf | hlim
      · exact h.faulted hf
      · rwa [h.params] at hlim
  · have hst := step_controller hlt ht
    exact ⟨_, hst, h.inv.step (by simp [Permitted, ht]) hst, by simp [h.params], by simpa using h.begun,
      fun hf => h.faulted (by simpa using hf)⟩

/-! ### A commit without an end -/

/-- A run of a commit in which a step of the block is enabled for ever, state by state. -/
structure Endless (s : State) (σ : Nat → State) : Prop where
  reached : ∀ k, run k s = .next (σ k)
  underway : ∀ k, Underway s (σ k)
  enabled : ∀ k, (σ k).blockEnabled = true

/-- A commit whose run never reaches an end goes through states without end. -/
theorem exists_endless (hl : s.params.legal = true) (h : Underway s s) (hu : Undisturbed s)
    (hn : ∀ n t, run n s = .next t → Underway s t → t.blockEnabled = true) : ∃ σ, Endless s σ := by
  have key (k : Nat) : Going s k ∧ ∃ t, run k s = .next t ∧ Underway s t := by
    induction k with
    | zero =>
      refine ⟨fun i hi => ?_, s, rfl, h⟩
      obtain rfl := Nat.le_zero.1 hi
      exact ⟨s, rfl, hn 0 s rfl h⟩
    | succ k ih =>
      obtain ⟨hg, t, ht, hut⟩ := ih
      obtain ⟨v, hst, huv⟩ := hut.step hl (hu k t hg ht)
      have hr : run (k + 1) s = .next v := (run_succ ht).trans hst
      refine ⟨fun i hi => ?_, v, hr, huv⟩
      rcases Nat.le_succ_iff.1 hi with hi | rfl
      · exact hg i hi
      · exact ⟨v, hr, hn _ v hr huv⟩
  choose σ hr hu using fun k => (key k).2
  exact ⟨σ, hr, hu, fun k => hn k _ (hr k) (hu k)⟩

/-- R144: a commit that cannot go on for ever comes to an end. -/
theorem ends_of_not_endless (hl : s.params.legal = true) (h : Underway s s) (hu : Undisturbed s)
    (hne : ∀ σ, ¬ Endless s σ) : ∃ n t, run n s = .next t ∧ Underway s t ∧ t.blockEnabled = false := by
  by_contra hno
  obtain ⟨σ, hσ⟩ := exists_endless hl h hu fun n t hr hut => by
    by_contra hb
    exact hno ⟨n, t, hr, hut, by simpa using hb⟩
  exact hne σ hσ

namespace Endless

variable {σ : Nat → State} {k : Nat} (h : Endless s σ)
include h

theorem going (k : Nat) : Going s k :=
  fun i _ => ⟨σ i, h.reached i, h.enabled i⟩

theorem step (k : Nat) : step (σ k) = .next (σ (k + 1)) :=
  (run_succ (h.reached k)).symm.trans (h.reached (k + 1))

theorem turns (hu : Undisturbed s) (k : Nat) : (σ k).turn = .block ∨ (σ k).turn = .controller :=
  hu k _ (h.going k) (h.reached k)

/-- R143: the block has the turn again and again. -/
theorem block_again (hf : BlockFair s) (k : Nat) : ∃ j, (σ (k + j)).turn = .block := by
  obtain ⟨j, t, hr, ht⟩ := hf k (h.going k)
  rw [h.reached] at hr
  cases hr
  exact ⟨j, ht⟩

/-- R49: an operation in flight is completed. -/
theorem ready_again (hf : CompleteFair s) {k : Nat} (hb : (σ k).nvBusy = true) : ∃ j, (σ (k + j)).nvBusy = false := by
  obtain ⟨j, t, hr, ht⟩ := hf k _ (h.going k) (h.reached k) hb
  rw [h.reached] at hr
  cases hr
  exact ⟨j, ht⟩

theorem legal (hl : s.params.legal = true) (k : Nat) : (σ k).params.legal = true := by
  rwa [(h.underway k).params]

theorem controller (hl : s.params.legal = true) (ht : (σ k).turn = .controller) :
    σ (k + 1) = advance (complete (σ k)) := by
  have hst := h.step k
  rw [step_controller (h.legal hl k) ht, Host.Outcome.next.injEq] at hst
  exact hst.symm

/-- The block's step takes an endless commit to a later phase, or is a not-ready answer below the limit. -/
theorem progress (hl : s.params.legal = true) (ht : (σ k).turn = .block) :
    (σ k).phase.code.toNat < (σ (k + 1)).phase.code.toNat ∨
      ((σ k).nvBusy = true ∧ (σ k).pollExpires = false ∧ (σ (k + 1)).phase = (σ k).phase ∧
        (σ (k + 1)).nvBusy = true ∧ (σ (k + 1)).pollcnt = (σ k).pollcntAfterBusy) := by
  have hst := h.step k
  rw [step_block (h.legal hl k) ht, onNext_eq_next] at hst
  obtain ⟨v, hv, heq⟩ := hst
  have hen := h.enabled (k + 1)
  rw [heq] at hen ⊢
  have hev : v.blockEnabled = true := by simpa [State.blockEnabled] using hen
  obtain hlt | ⟨hb, hexp, j, rfl, hp⟩ :=
    (BlockEffect.ofExec hv).progress rfl (h.underway k).begun (h.enabled k) hev
  · exact .inl (by simpa using hlt)
  · exact .inr ⟨hb, hexp, by simp [hp], by simpa using hb, by simp⟩

end Endless

/-! ### Two measures of progress -/

/-- A quantity that grows again and again has no bound. -/
theorem unbounded_of_grows {f : Nat → Nat} (hg : ∀ k, ∃ j, f k < f (k + j)) (b : Nat) : ∃ k, b ≤ f k := by
  induction b with
  | zero => exact ⟨0, Nat.zero_le _⟩
  | succ b ih =>
    obtain ⟨k, hk⟩ := ih
    obtain ⟨j, hj⟩ := hg k
    exact ⟨k + j, by omega⟩

/-- With a limit: the phase, then the not-ready answers seen in it (R16, R83). -/
def limitedProgress (s : State) : Nat :=
  s.phase.code.toNat * 4294967296 + s.pollcnt.toNat

/-- Without one: the phase, then whether its operation has completed (R49). -/
def awaitedProgress (s : State) : Nat :=
  2 * s.phase.code.toNat + s.ready.toNat

theorem awaitedProgress_busy {s : State} (h : s.nvBusy = true) : awaitedProgress s = 2 * s.phase.code.toNat := by
  simp [awaitedProgress, State.ready, h]

theorem awaitedProgress_ready {s : State} (h : s.nvBusy = false) :
    awaitedProgress s = 2 * s.phase.code.toNat + 1 := by
  simp [awaitedProgress, State.ready, h]

namespace Endless

variable {s : State} {σ : Nat → State} {k : Nat} (h : Endless s σ)
include h

theorem limitedProgress_lt (hl : s.params.legal = true) (hlim : s.params.pollLimit ≠ none)
    (ht : (σ k).turn = .block) : limitedProgress (σ k) < limitedProgress (σ (k + 1)) := by
  unfold limitedProgress
  obtain hlt | ⟨_, hexp, hp, _, hcnt⟩ := h.progress hl ht
  · have hc := (σ k).pollcnt.isLt
    omega
  · obtain ⟨l, hlim⟩ := Option.ne_none_iff_exists'.1 hlim
    have hlimk : (σ k).params.pollLimit = some l := by rwa [(h.underway k).params]
    rw [hp, hcnt, State.toNat_pollcntAfterBusy hlimk (h.legal hl k) hexp]
    omega

theorem limitedProgress_monotone (hl : s.params.legal = true) (hlim : s.params.pollLimit ≠ none) (hu : Undisturbed s) :
    Monotone fun k => limitedProgress (σ k) := by
  refine monotone_nat_of_le_succ fun k => ?_
  rcases h.turns hu k with ht | ht
  · exact (h.limitedProgress_lt hl hlim ht).le
  · simp [limitedProgress, h.controller hl ht]

theorem awaitedProgress_monotone (hl : s.params.legal = true) (hu : Undisturbed s) :
    Monotone fun k => awaitedProgress (σ k) := by
  refine monotone_nat_of_le_succ fun k => ?_
  rcases h.turns hu k with ht | ht
  · obtain hlt | ⟨hb, _, hp, hb', _⟩ := h.progress hl ht
    · have hready := (σ k).ready.toNat_le
      unfold awaitedProgress
      omega
    · rw [awaitedProgress_busy hb, awaitedProgress_busy hb', hp]
  · have hready := (σ k).ready.toNat_le
    rw [h.controller hl ht, awaitedProgress_ready (s := advance _) (by simp), advance_phase, complete_phase]
    unfold awaitedProgress
    omega

theorem limitedProgress_grows (hl : s.params.legal = true) (hlim : s.params.pollLimit ≠ none) (hu : Undisturbed s)
    (hf : BlockFair s) (k : Nat) : ∃ j, limitedProgress (σ k) < limitedProgress (σ (k + j)) := by
  obtain ⟨j, ht⟩ := h.block_again hf k
  have hle := h.limitedProgress_monotone hl hlim hu (Nat.le_add_right k j)
  exact ⟨j + 1, lt_of_le_of_lt hle (h.limitedProgress_lt hl hlim ht)⟩

/-- R83, R110: with a limit no commit is endless, whatever the controller does. -/
theorem pollLimit_eq_none (hl : s.params.legal = true) (hu : Undisturbed s) (hf : BlockFair s) :
    s.params.pollLimit = none := by
  by_contra hlim
  obtain ⟨k, hk⟩ := unbounded_of_grows (h.limitedProgress_grows hl hlim hu hf) (16 * 4294967296)
  have hp := (σ k).phase.code.isLt
  have hc := (σ k).pollcnt.isLt
  unfold limitedProgress at hk
  omega

theorem awaitedProgress_grows (hl : s.params.legal = true) (hu : Undisturbed s) (hf : BlockFair s)
    (hc : CompleteFair s) (k : Nat) : ∃ j, awaitedProgress (σ k) < awaitedProgress (σ (k + j)) := by
  have hmono (j : Nat) : awaitedProgress (σ k) ≤ awaitedProgress (σ (k + j)) :=
    h.awaitedProgress_monotone hl hu (Nat.le_add_right k j)
  cases hb : (σ k).nvBusy with
  | true =>
    obtain ⟨j, hj⟩ := h.ready_again hc hb
    have hle := hmono j
    rw [awaitedProgress_busy hb, awaitedProgress_ready hj] at hle
    exact ⟨j, by rw [awaitedProgress_busy hb, awaitedProgress_ready hj]; omega⟩
  | false =>
    obtain ⟨j, ht⟩ := h.block_again hf k
    have hle := hmono j
    rw [awaitedProgress_ready hb] at hle ⊢
    obtain hlt | ⟨hbj, _⟩ := h.progress hl ht
    · have hready := (σ (k + j)).ready.toNat_le
      refine ⟨j + 1, ?_⟩
      rw [← Nat.add_assoc]
      unfold awaitedProgress at *
      omega
    · rw [awaitedProgress_busy hbj] at hle
      exact ⟨j, by rw [awaitedProgress_busy hbj]; omega⟩

/-- R49, R145: a commit whose operations are completed is not endless, with a limit or without. -/
theorem not_completeFair (hl : s.params.legal = true) (hu : Undisturbed s) (hf : BlockFair s) : ¬ CompleteFair s := by
  intro hc
  obtain ⟨k, hk⟩ := unbounded_of_grows (h.awaitedProgress_grows hl hu hf hc) 32
  have hp := (σ k).phase.code.isLt
  have hready := (σ k).ready.toNat_le
  unfold awaitedProgress at hk
  omega

end Endless

end Safety

open Machine Safety

/-! ### The obligations -/

/-- Settles O40, from the case analysis of the step. -/
theorem stepKeepsStateOk : Obligations.StepKeepsStateOk :=
  fun _ _ h hst => h.step hst

/-- Settles O30: the contract's conditions at the port, the frame by what a program reaches, the store by the inversion of
the block's operations. -/
theorem memWriteContract : Obligations.MemWriteContract := by
  intro a v s
  refine ⟨fun h => ?_, fun hb hm halign hbase hlo hhi => ?_, fun i p t hi h hbus => exec_presents_write hi h hbus⟩
  · exact busMemWrite_eq_fault.2 (by rwa [Params.storable_eq_false_iff])
  · have ha : s.params.storable a = true := (Params.storable_iff ..).2 ⟨halign, hlo, hhi⟩
    refine ⟨_, exec_busOp_of_covers (op := .write a v) ⟨hb, hm, ha⟩, s.accepted_accept _ _, rfl, rfl, rfl,
      fun b hout => ?_⟩
    exact State.observeByte_accept hb (by rwa [BusOp.pending, Pending.affected, Params.programAddr_eq hbase ha])

/-- Settles O34: the region reads erased, and the erase writes nothing else. -/
theorem completeErase : Obligations.CompleteErase := by
  intro s hb hp
  refine ⟨fun i hi => ?_, fun a ha => ?_, complete_nvBusy s, complete_nvPending hb, complete_nvMode (by simp [hp]),
    sameBlock_complete s, sameWorld_complete s⟩
  · have h := allErased_complete hb hp i (by rwa [complete_params])
    rw [complete_params] at h
    exact h.observed (.inl (complete_nvBusy s))
  · exact observeByte_complete_outside hb (by rwa [hp])

/-- Settles O35: the program reaches the word at its address, where it stores the word byte by byte. -/
theorem completeProgram : Obligations.CompleteProgram := by
  intro s a v hb hp hbase ha
  have haddr := Params.programAddr_eq hbase ha
  refine ⟨fun b hout => ?_, complete_nvBusy s, complete_nvPending hb, complete_nvMode (by simp [hp]),
    sameBlock_complete s, sameWorld_complete s, fun he => ?_⟩
  · exact observeByte_complete_outside hb (by rwa [hp, Pending.affected, haddr])
  · rw [← haddr] at he ⊢
    obtain ⟨hword, hbyte⟩ := read_complete_program hb hp he
    refine ⟨?_, fun j hj => ?_⟩
    · rw [State.memRead, complete_params, if_pos ha]
      exact Holds.observed (by rwa [Holds, complete_params]) (.inl (complete_nvBusy s))
    · rw [State.observeByte_ready (complete_nvBusy s)]
      exact hbyte j hj

/-- Settles O47: of the four kinds of step, two can change the stored bytes, and only with such an operation in flight. -/
theorem regionChanges : Obligations.RegionChanges := by
  intro s t hst
  obtain ⟨_, ⟨_, u, hu, rfl⟩ | ⟨ht, rfl⟩ | ⟨fate, ht, rfl⟩ | ⟨op, u, _, _, hu, rfl⟩⟩ := step_cases hst
  · obtain ⟨hmem, hparams⟩ := exec_mem_params hu
    exact ⟨by simpa, fun hne => absurd (by simpa) hne⟩
  · refine ⟨by simp, fun hne => ?_⟩
    obtain ⟨hb, hp⟩ := State.disturbs_of_complete_mem (by simpa using hne)
    exact ⟨hb, hp, .inl ht⟩
  · refine ⟨by simp, fun hne => ?_⟩
    obtain ⟨hb, hp⟩ := State.disturbs_of_platformReset_mem (by simpa using hne)
    exact ⟨hb, hp, .inr ⟨fate, ht⟩⟩
  · obtain ⟨hmem, hparams⟩ := exec_mem_params hu
    exact ⟨by simpa, fun hne => absurd (by simpa) hne⟩

/-- Settles O48: what the contract asks of each transfer. -/
theorem protection : Obligations.Protection := by
  intro i s t h hne
  obtain heq | ⟨op, hc, hp⟩ := exec_nvPending_cases h
  · exact absurd heq hne
  · rw [hp]
    cases op with
    | idle => exact hc.elim
    | mode m => exact ⟨hc, by simp [BusOp.pending], by simp [BusOp.pending], fun _ => ⟨m, rfl⟩⟩
    | erase =>
      obtain ⟨hb, hm⟩ := hc
      exact ⟨hb, fun _ => hm, by simp [BusOp.pending], by simp [hm]⟩
    | write a v =>
      obtain ⟨hb, hm, ha⟩ := hc
      refine ⟨hb, by simp [BusOp.pending], fun a' v' hp' => ?_, by simp [hm]⟩
      cases hp'
      exact ⟨hm, ha⟩

/-- Settles O55: a commit ends or goes on for ever, and one of the two measures of progress rules the second out. -/
theorem commitTerminates : Obligations.CommitTerminates := by
  intro s hl hinv hp hu hf
  have h := Underway.start hinv hp
  refine ⟨fun hlim => ?_, fun hlim hnv hc => ?_⟩
  · obtain ⟨n, t, hr, _, hend⟩ := ends_of_not_endless hl h hu fun σ hσ => hlim (hσ.pollLimit_eq_none hl hu hf)
    exact ⟨n, t, hr, State.blockEnabled_eq_false.1 hend⟩
  · obtain ⟨n, t, hr, ht, hend⟩ := ends_of_not_endless hl h hu fun σ hσ => hσ.not_completeFair hl hu hf (hc hnv)
    obtain hfin | hfault := State.blockEnabled_eq_false.1 hend
    · exact ⟨n, t, hr, hfin⟩
    · exact absurd hlim (ht.faulted hfault)

/-- Settles O22: the port's refusals, read through the issues. -/
theorem issueViolations : Obligations.IssueViolations :=
  fun _ => ⟨onNext_eq_fault.trans busNvMode_eq_fault, onNext_eq_fault.trans busNvMode_eq_fault,
    onNext_eq_fault.trans busNvMode_eq_fault, onNext_eq_fault.trans busNvErase_eq_fault,
    onNext_eq_fault.trans busMemWrite_eq_fault⟩

/-- Settles O28: a mode write hides nothing, and its completion puts the mode in force. -/
theorem nvModeContract : Obligations.NvModeContract := by
  intro m s
  refine ⟨fun hb => busNvMode_eq_fault.2 hb, fun hb => ?_⟩
  refine ⟨_, exec_busOp_of_covers (op := .mode m) hb, s.accepted_accept _ _, rfl, rfl, fun a => ?_, ?_⟩
  · exact State.observeByte_accept hb (.inr (Nat.zero_le a))
  · exact (complete_mode rfl rfl).1

/-- Settles O29: an erase is in flight, and reaches the region alone. -/
theorem nvEraseContract : Obligations.NvEraseContract := by
  intro s
  refine ⟨fun h => busNvErase_eq_fault.2 h, fun hb hm => ?_⟩
  exact ⟨_, exec_busOp_of_covers (op := .erase) ⟨hb, hm⟩, s.accepted_accept _ _, rfl,
    fun a ha => State.observeByte_accept hb ha⟩

/-- Settles O31: the answer is the flag's, and only the outputs become idle. -/
theorem nvReadyAnswer : Obligations.NvReadyAnswer := by
  intro s
  refine ⟨s.quiet, rfl, fun hb => ?_, fun hb => ?_, rfl, ⟨rfl, rfl⟩, ⟨rfl, rfl⟩, ?_, ?_, ?_⟩
  · simp [State.nvReadyWire, State.ready, hb]
  · simp [State.nvReadyWire, State.ready, hb]
  · simp [SameBlock]
  · simp [SameController]
  · simp [SameWorld]

/-- Settles O33: the mode lands in the mode register; a turn with nothing in flight passes. -/
theorem completeMode : Obligations.CompleteMode := by
  intro s
  refine ⟨fun m hb hp => ?_, fun hb => ⟨sameBlock_complete s, ?_, sameWorld_complete s⟩⟩
  · obtain ⟨hmode, hmem⟩ := complete_mode hb hp
    exact ⟨hmode, complete_nvBusy s, complete_nvPending hb, hmem, sameBlock_complete s, sameWorld_complete s⟩
  · rw [complete_idle hb]
    simp [SameController]

/-- Settles O39: the branches of the step that are not the block's. -/
theorem stepOfOthers : Obligations.StepOfOthers := by
  intro s
  refine ⟨fun hl => ?_, fun hl => ⟨step_controller hl, fun _ => step_platform hl, fun op ht hp => ?_,
    fun op ht hp => step_otherMaster hl ht hp⟩⟩
  · simp [step, hl]
  · simp [step, hl, ht, hp]

end Sys2Proof

/-! # The family 30_encoding.md: codes, the word of ENCODE, and the block's port

A code read back is the code of what it names, so the decoder inverts the encoder and nothing else decodes. The four fields
of a word do not overlap, so or, sum and concatenation agree. The command on the block's port is a function of the phase
whose operation the block took (`State.presents`). -/

namespace Sys2Proof

/-! ### Codes on registers and ports read back (R55, R56, R58) -/

/-- R55: a code names a phase exactly when it is the phase's code. -/
theorem Phase.ofCode?_eq_some {c : BitVec 4} {p : Phase} : Phase.ofCode? c = some p ↔ c = p.code := by
  refine ⟨fun h => ?_, fun h => h ▸ p.ofCode?_code⟩
  unfold Phase.ofCode? at h
  split at h <;> cases h <;> exact BitVec.eq_of_toNat_eq ‹_›

/-- R56: a code names a mode exactly when it is the mode's code. -/
theorem Mode.ofCode?_eq_some {c : BitVec 2} {m : Mode} : Mode.ofCode? c = some m ↔ c = m.code := by
  refine ⟨fun h => ?_, fun h => h ▸ m.ofCode?_code⟩
  unfold Mode.ofCode? at h
  split at h <;> cases h <;> exact BitVec.eq_of_toNat_eq ‹_›

theorem Phase.code_injective : Function.Injective Phase.code := fun p _ h =>
  Option.some.inj (p.ofCode?_code.symm.trans (Phase.ofCode?_eq_some.2 h))

theorem Phase.code_ne_reserved (p : Phase) : p.code ≠ 15 := by cases p <;> decide

theorem Mode.code_ne_reserved (m : Mode) : m.code ≠ 3 := by cases m <;> decide

/-- R58: the contents of `err`, in the order of their codes. -/
def Err.all : List Err :=
  [.noError, .fieldOverflow .offset, .fieldOverflow .mode, .fieldOverflow .status, .fieldOverflow .setpoint,
    .hardwareTimeout .s1, .hardwareTimeout .s2, .hardwareTimeout .s3, .hardwareTimeout .s4, .hardwareTimeout .s5]

theorem Err.mem_all (e : Err) : e ∈ Err.all := by
  cases e with
  | noError => decide
  | fieldOverflow f => cases f <;> decide
  | hardwareTimeout k => cases k <;> decide

theorem Err.code_injective : Function.Injective Err.code := fun e f =>
  List.inj_on_of_nodup_map (l := Err.all) (by decide) e.mem_all f.mem_all

/-! ### The decoder inverts the encoder (R51, R55, R57) -/

@[simp] theorem encodeOn_phase_operation (modeVal : BitVec 2) (addr wdata : Word) (p : Phase) :
    encodeOn modeVal addr wdata p.operation = .phase p.code := by cases p <;> rfl

@[simp] theorem Phase.operation_wellFormed (p : Phase) : p.operation.wellFormed = true := by cases p <;> rfl

@[simp] theorem BusOp.operation_wellFormed (op : BusOp) : op.operation.wellFormed = true := by cases op <;> rfl

theorem decodePhase_eq_ok {c : BitVec 4} {i : Instr} (h : decodePhase c = .ok i) :
    ∃ p : Phase, i = p.operation ∧ c = p.code := by
  unfold decodePhase at h
  split at h
  · rename_i p hp
    cases h
    exact ⟨p, rfl, Phase.ofCode?_eq_some.1 hp⟩
  · cases h

/-- R57: what decodes on the port is a bus operation's encoding on the very wires presented. -/
theorem decodeBus_eq_ok {cmd modeVal : BitVec 2} {addr wdata : Word} {i : Instr}
    (h : decodeBus cmd modeVal addr wdata = .ok i) :
    ∃ op : BusOp, i = op.operation ∧ .bus cmd modeVal addr wdata = encodeOn modeVal addr wdata op.operation := by
  unfold decodeBus at h
  split at h
  · rename_i hcmd
    obtain rfl : cmd = 0 := BitVec.eq_of_toNat_eq hcmd
    cases h
    exact ⟨.idle, rfl, rfl⟩
  · rename_i hcmd
    obtain rfl : cmd = 1 := BitVec.eq_of_toNat_eq hcmd
    split at h
    · rename_i m hm
      obtain rfl := Mode.ofCode?_eq_some.1 hm
      cases h
      exact ⟨.mode m, rfl, rfl⟩
    · cases h
  · rename_i hcmd
    obtain rfl : cmd = 2 := BitVec.eq_of_toNat_eq hcmd
    cases h
    exact ⟨.erase, rfl, rfl⟩
  · rename_i h0 h1 h2
    have hcmd : cmd.toNat = 3 := by have := cmd.isLt; rw [imp_false] at h0 h1 h2; omega
    obtain rfl : cmd = 3 := BitVec.eq_of_toNat_eq hcmd
    cases h
    exact ⟨.write addr wdata, rfl, rfl⟩

/-- R54: a word is data exactly when it is well formed as data. -/
theorem decodeWord_eq_ok {w : Word} {i : Instr} :
    decodeWord w = .ok i ↔ i = .packedWord w ∧ i.wellFormed = true := by
  unfold decodeWord
  split
  · rename_i hw
    exact ⟨fun h => by cases h; exact ⟨rfl, hw⟩, fun ⟨hi, _⟩ => hi ▸ rfl⟩
  · rename_i hw
    refine ⟨nofun, ?_⟩
    rintro ⟨rfl, hwf⟩
    exact absurd hwf hw

namespace Machine

/-! ### The fields of a word (R51 to R54) -/

/-- R52: two fields placed at `i` and `j` do not overlap when the lower one ends at or before `j`. -/
theorem shiftedFields_disjoint {v w n i j : Nat} (x : BitVec v) (y : BitVec w) (h : i + v ≤ j) :
    (x.setWidth n <<< i) &&& (y.setWidth n <<< j) = 0#n := by
  ext k hk
  by_cases hkj : k < j
  · simp [hkj]
  · have hx : x.getLsbD (k - i) = false := BitVec.getLsbD_of_ge x (k - i) (by omega)
    simp [hx]

/-- R52: the field at bit 0 does not overlap one placed at or above its width. -/
theorem lowField_disjoint {v w n j : Nat} (x : BitVec v) (y : BitVec w) (h : v ≤ j) :
    x.setWidth n &&& (y.setWidth n <<< j) = 0#n := by
  simpa using shiftedFields_disjoint (n := n) (i := 0) x y (by omega)

/-- R52: the packed word is the concatenation of R51. -/
theorem packFields_eq_append (r : Record) :
    packFields r = 0#8 ++ r.setpoint ++ r.status ++ r.mode ++ 0#2 ++ r.offset := by
  refine Eq.trans ?_ (BitVec.setWidth_eq _)
  simp only [BitVec.setWidth_append_eq_shiftLeft_setWidth_or, BitVec.shiftLeft_or_distrib, ← BitVec.shiftLeft_add]
  simp only [packFields, BitVec.setWidth_zero, BitVec.zero_shiftLeft, BitVec.zero_or, BitVec.or_zero, Nat.reduceAdd]
  ac_rfl

/-- R52: the fields do not overlap, so the packed word is their sum. -/
theorem packFields_eq_add (r : Record) :
    packFields r = r.offset.setWidth 32 + (r.mode.setWidth 32 <<< 10) + (r.status.setWidth 32 <<< 12) +
      (r.setpoint.setWidth 32 <<< 14) := by
  have hmode := lowField_disjoint (n := 32) (j := 10) r.offset r.mode (by decide)
  have hstatus : (r.offset.setWidth 32 ||| r.mode.setWidth 32 <<< 10) &&& r.status.setWidth 32 <<< 12 = 0#32 := by
    simp [BitVec.and_or_distrib_right, lowField_disjoint, shiftedFields_disjoint]
  have hsetpoint : (r.offset.setWidth 32 ||| r.mode.setWidth 32 <<< 10 ||| r.status.setWidth 32 <<< 12) &&&
      r.setpoint.setWidth 32 <<< 14 = 0#32 := by
    simp [BitVec.and_or_distrib_right, lowField_disjoint, shiftedFields_disjoint]
  rw [BitVec.add_eq_or_of_and_eq_zero _ _ hmode, BitVec.add_eq_or_of_and_eq_zero _ _ hstatus,
    BitVec.add_eq_or_of_and_eq_zero _ _ hsetpoint]
  rfl

/-- R53, R54: a word that passes the mask has bits 9:8 and 31:24 zero. -/
theorem reservedBits_zero_of_mask {w : Word} (h : w &&& 0xFF000300#32 = 0#32) :
    w.extractLsb' 8 2 = 0 ∧ w.extractLsb' 24 8 = 0 := by
  have hlow := congrArg (BitVec.extractLsb' 8 2) h
  have hhigh := congrArg (BitVec.extractLsb' 24 8) h
  have h2 : (0xFF000300#32).extractLsb' 8 2 = BitVec.allOnes 2 := by decide
  have h8 : (0xFF000300#32).extractLsb' 24 8 = BitVec.allOnes 8 := by decide
  rw [BitVec.extractLsb'_and, h2, BitVec.and_allOnes] at hlow
  rw [BitVec.extractLsb'_and, h8, BitVec.and_allOnes] at hhigh
  exact ⟨hlow, hhigh⟩

/-- R53: a word with a reserved bit set does not pass the mask. -/
theorem reservedBitsClear_eq_false {w : Word} (h : w.extractLsb' 8 2 ≠ 0 ∨ w.extractLsb' 24 8 ≠ 0) :
    reservedBitsClear w = false := by
  rw [← Bool.not_eq_true]
  intro hw
  obtain ⟨hlow, hhigh⟩ := reservedBits_zero_of_mask (eq_of_beq hw)
  exact h.elim (absurd hlow) (absurd hhigh)

/-! ### What the block presents to the controller (R22, R57) -/

/-- R57: the transfer on the block's port after the step it takes in a phase. -/
def State.presents (s : State) : Phase → BusOp
  | .s1Issue => s.transfer .s1
  | .s2Issue => s.transfer .s2
  | .s3Issue => s.transfer .s3
  | .s4Issue => s.transfer .s4
  | .s5Issue => s.transfer .s5
  | .idle | .encode | .s1Wait | .s2Wait | .s3Wait | .s4Wait | .s5Wait | .ack | .restart | .fault => .idle

@[simp] theorem State.presents_issuePhase (s : State) (k : SeqStep) : s.presents k.issuePhase = s.transfer k := by
  cases k <;> rfl

@[simp] theorem State.presents_waitPhase (s : State) (k : SeqStep) : s.presents k.waitPhase = .idle := by
  cases k <;> rfl

theorem BlockEffect.bus_eq {p : Phase} {s t : State} (he : BlockEffect s p t) : t.bus = s.presents p := by
  cases he with
  | issue _ | ready _ | timeout _ | spin _ _ => simp
  | poll | encode _ | overflow _ | ack | restart | held _ | halt => rfl

@[simp] theorem complete_bus (s : State) : (complete s).bus = .idle := by unfold complete; split <;> rfl

@[simp] theorem platformReset_bus (fate : ControllerFate) (s : State) : (platformReset fate s).bus = .idle := by
  unfold platformReset; split <;> rfl

/-- R57: after any step the port carries what the block presented, and nothing when it was another's step. -/
theorem step_bus {s t : State} (h : step s = .next t) :
    t.bus = if s.turn = .block then s.presents s.phase else .idle := by
  obtain ⟨_, ⟨ht, u, hu, rfl⟩ | ⟨ht, rfl⟩ | ⟨fate, ht, rfl⟩ | ⟨op, u, ht, _, _, rfl⟩⟩ := step_cases h
  · simpa [ht] using (BlockEffect.ofExec hu).bus_eq
  · simp [ht]
  · simp [ht]
  · simp [ht]

end Machine

open Machine

/-! ### The obligations -/

/-- Settles O3: by the three things that can be presented. -/
theorem encodeDecode : Obligations.EncodeDecode := by
  intro p i h
  cases p with
  | phase c =>
    obtain ⟨q, rfl, rfl⟩ := decodePhase_eq_ok h
    exact ⟨by simp, 0, 0, 0, by simp⟩
  | bus cmd modeVal addr wdata =>
    obtain ⟨op, rfl, hop⟩ := decodeBus_eq_ok h
    exact ⟨by simp, modeVal, addr, wdata, hop⟩
  | word w =>
    obtain ⟨rfl, hwf⟩ := decodeWord_eq_ok.1 h
    exact ⟨hwf, 0, 0, 0, rfl⟩

/-- Settles O5: the fields do not overlap. -/
theorem fieldAssembly : Obligations.FieldAssembly :=
  fun r => ⟨rfl, packFields_eq_append r, packFields_eq_add r⟩

/-- Settles O6: a produced word passes the mask of R54, and a word with a reserved bit set does not. -/
theorem reservedBits : Obligations.ReservedBits := by
  refine ⟨fun o m st sp w h => ?_, fun w h => ?_⟩
  · obtain ⟨r, rfl⟩ := encodeRecord_packs h
    exact reservedBits_zero_of_mask (packFields_reservedBits r)
  · simp [decodeRecord, decode, decodeWord, reservedBitsClear_eq_false h]

/-- Settles O57: the command is read off the phase, the address off the one store the block presents. -/
theorem portCommands : Obligations.PortCommands := by
  intro s t h
  have hbus := step_bus h
  obtain ⟨hparams, _⟩ := regionChanges s t h
  unfold State.nvAddr State.nvCmd
  rw [hbus, hparams]
  by_cases hturn : s.turn = .block
  · simp only [if_pos hturn]
    cases s.phase <;> exact ⟨rfl, rfl⟩
  · simp only [if_neg hturn, and_self]

/-- Settles O1: the codes and words of the tables, evaluated. -/
theorem decodeKnownCodes : Obligations.DecodeKnownCodes := by
  unfold Obligations.DecodeKnownCodes
  decide

/-- Settles O2: by the three kinds of instruction. -/
theorem decodeEncode : Obligations.DecodeEncode := by
  intro modeVal addr wdata i hwf
  rcases i.kinds with ⟨p, rfl⟩ | ⟨op, rfl⟩ | ⟨w, rfl⟩
  · rw [encodeOn_phase_operation, decode_phase_code]
  · exact decode_encodeOn_busOp ..
  · exact decodeWord_eq_ok.2 ⟨rfl, hwf⟩

/-- Settles O4: the tables evaluated, and each code read back. -/
theorem registerCodes : Obligations.RegisterCodes :=
  ⟨by decide, fun _ _ h => Phase.code_injective h, Phase.code_ne_reserved, rfl, rfl, rfl, Mode.code_ne_reserved,
    rfl, rfl, rfl, rfl, rfl, rfl, rfl, rfl, rfl, rfl, fun _ _ h => Err.code_injective h, rfl, rfl, rfl, rfl⟩

/-- Settles O32: the data format is no operation of any state. -/
theorem packedWordIsData : Obligations.PackedWordIsData := fun _ _ => rfl

end Sys2Proof

/-! # The family 40_encoder.md: ENCODE and its inverse DECODE

A port accepted for a field of `n` bits is an `n`-bit number zero-extended to the port, so ENCODE accepts exactly the
ports that carry a record and packs that record (`encodeRecord_eq_ok`), and DECODE accepts exactly the packed records
(`decodeRecord_eq_some`). The round trips are these two equivalences read in both directions. -/

namespace Sys2Proof

/-! ### The field check (R65, R66) -/

/-- R70: the bits of a word from `i`, as a number. -/
theorem toNat_extractLsb'_eq (v : Word) (i n : Nat) : (v.extractLsb' i n).toNat = v.toNat / 2 ^ i % 2 ^ n := by
  rw [BitVec.extractLsb'_toNat, Nat.shiftRight_eq_div_pow]

theorem overflows_iff {n : Nat} {v : Word} : overflows n v = true ↔ 2 ^ n ≤ v.toNat := decide_eq_true_iff

/-- R66: the comparison with `2 ^ n` is the or-reduction of the bits at and above `n`. -/
theorem overflows_iff_highBits {n : Nat} (v : Word) : overflows n v = true ↔ v.extractLsb' n (32 - n) ≠ 0 := by
  have hhigh : v.extractLsb' n (32 - n) = 0 ↔ v.toNat / 2 ^ n = 0 := by
    rw [← BitVec.toNat_inj, toNat_extractLsb'_eq, Nat.mod_eq_of_lt]
    · rfl
    · refine Nat.div_lt_of_lt_mul (v.isLt.trans_le ?_)
      rw [← Nat.pow_add]
      exact Nat.pow_le_pow_right (by decide) (by omega)
  rw [overflows_iff, Ne, hhigh, Nat.div_eq_zero_iff_lt (Nat.two_pow_pos n), Nat.not_lt]

/-- R65: a field of `n` bits on its port does not overflow. -/
theorem overflows_setWidth {n : Nat} (x : BitVec n) : overflows n (x.setWidth 32) = false :=
  decide_eq_false (Nat.not_le_of_lt ((BitVec.toNat_setWidth 32 x).trans_lt ((Nat.mod_le ..).trans_lt x.isLt)))

namespace Machine

/-- The four ports of ENCODE carry the fields of `r` (R13, R65). -/
def Record.OnPorts (r : Record) (o m st sp : Word) : Prop :=
  o = r.offset.setWidth 32 ∧ m = r.mode.setWidth 32 ∧ st = r.status.setWidth 32 ∧ sp = r.setpoint.setWidth 32

/-- A port below `2 ^ n` loses nothing when it is cut to `n` bits. -/
theorem eq_setWidth_extractLsb' {n : Nat} {v : Word} (h : v.toNat < 2 ^ n) :
    v = (v.extractLsb' 0 n).setWidth 32 := by
  apply BitVec.eq_of_toNat_eq
  rw [BitVec.toNat_setWidth, toNat_extractLsb'_eq, Nat.pow_zero, Nat.div_one, Nat.mod_eq_of_lt h,
    Nat.mod_eq_of_lt v.isLt]

/-- R65: ports in range carry the record of their low bits. -/
theorem Record.OnPorts.of_lt {o m st sp : Word} (ho : o.toNat < 2 ^ 8) (hm : m.toNat < 2 ^ 2)
    (hst : st.toNat < 2 ^ 2) (hsp : sp.toNat < 2 ^ 10) :
    (⟨o.extractLsb' 0 8, m.extractLsb' 0 2, st.extractLsb' 0 2, sp.extractLsb' 0 10⟩ : Record).OnPorts o m st sp :=
  ⟨eq_setWidth_extractLsb' ho, eq_setWidth_extractLsb' hm, eq_setWidth_extractLsb' hst, eq_setWidth_extractLsb' hsp⟩

/-- R65: ENCODE refuses no ports that carry a record, and packs the whole of it. -/
theorem encodeRecord_onPorts {r : Record} {o m st sp : Word} (h : r.OnPorts o m st sp) :
    encodeRecord o m st sp = .ok (packFields r) := by
  obtain ⟨rfl, rfl, rfl, rfl⟩ := h
  simp [encodeRecord, overflows_setWidth, Field.width, BitVec.extractLsb'_setWidth_of_le]

/-- R65: everything ENCODE can do: refuse, naming the first field whose port is out of range (D3), or pack a record. -/
theorem encodeRecord_cases (o m st sp : Word) :
    (2 ^ 8 ≤ o.toNat ∧ encodeRecord o m st sp = .error .offset) ∨
    (o.toNat < 2 ^ 8 ∧ 2 ^ 2 ≤ m.toNat ∧ encodeRecord o m st sp = .error .mode) ∨
    (o.toNat < 2 ^ 8 ∧ m.toNat < 2 ^ 2 ∧ 2 ^ 2 ≤ st.toNat ∧ encodeRecord o m st sp = .error .status) ∨
    (o.toNat < 2 ^ 8 ∧ m.toNat < 2 ^ 2 ∧ st.toNat < 2 ^ 2 ∧ 2 ^ 10 ≤ sp.toNat ∧
      encodeRecord o m st sp = .error .setpoint) ∨
    (o.toNat < 2 ^ 8 ∧ m.toNat < 2 ^ 2 ∧ st.toNat < 2 ^ 2 ∧ sp.toNat < 2 ^ 10 ∧
      ∃ r : Record, r.OnPorts o m st sp ∧ encodeRecord o m st sp = .ok (packFields r)) := by
  unfold encodeRecord
  simp only [overflows_iff, Field.width]
  split_ifs with ho hm hst hsp
  · exact .inl ⟨ho, rfl⟩
  · exact .inr (.inl ⟨Nat.lt_of_not_le ho, hm, rfl⟩)
  · exact .inr (.inr (.inl ⟨Nat.lt_of_not_le ho, Nat.lt_of_not_le hm, hst, rfl⟩))
  · exact .inr (.inr (.inr (.inl ⟨Nat.lt_of_not_le ho, Nat.lt_of_not_le hm, Nat.lt_of_not_le hst, hsp, rfl⟩)))
  · rw [Nat.not_le] at ho hm hst hsp
    exact .inr (.inr (.inr (.inr ⟨ho, hm, hst, hsp, _, .of_lt ho hm hst hsp, rfl⟩)))

/-- The numbers that the ports carry are those of the record. -/
theorem Record.OnPorts.toNat {r : Record} {o m st sp : Word} (h : r.OnPorts o m st sp) :
    r.offset.toNat = o.toNat ∧ r.mode.toNat = m.toNat ∧ r.status.toNat = st.toNat ∧ r.setpoint.toNat = sp.toNat := by
  obtain ⟨rfl, rfl, rfl, rfl⟩ := h
  simp (disch := decide) only [BitVec.toNat_setWidth_of_le, and_self]

/-- R65: what ENCODE accepts carries a record, and is packed from it. -/
theorem encodeRecord_eq_ok {o m st sp w : Word} :
    encodeRecord o m st sp = .ok w ↔ ∃ r : Record, r.OnPorts o m st sp ∧ w = packFields r := by
  refine ⟨fun h => ?_, fun ⟨r, hr, hw⟩ => hw ▸ encodeRecord_onPorts hr⟩
  rcases encodeRecord_cases o m st sp with ⟨_, h'⟩ | ⟨_, _, h'⟩ | ⟨_, _, _, h'⟩ | ⟨_, _, _, _, h'⟩ |
    ⟨_, _, _, _, r, hr, h'⟩
  all_goals cases h.symm.trans h'
  exact ⟨r, hr, rfl⟩

/-- R70: the packed word as a number. -/
theorem packFields_toNat (r : Record) :
    (packFields r).toNat =
      r.offset.toNat + r.mode.toNat * 2 ^ 10 + r.status.toNat * 2 ^ 12 + r.setpoint.toNat * 2 ^ 14 := by
  simp only [packFields_eq_add, BitVec.toNat_add, BitVec.toNat_shiftLeft, BitVec.toNat_setWidth, Nat.shiftLeft_eq]
  omega

/-- R67: a word without reserved bits is its four fields, packed. -/
theorem packFields_extract {w : Word} (h : w &&& 0xFF000300#32 = 0#32) :
    packFields ⟨w.extractLsb' 0 8, w.extractLsb' 10 2, w.extractLsb' 12 2, w.extractLsb' 14 10⟩ = w := by
  obtain ⟨hlow, hhigh⟩ := reservedBits_zero_of_mask h
  rw [← BitVec.toNat_inj, toNat_extractLsb'_eq, BitVec.ofNat_eq_ofNat, BitVec.toNat_zero] at hlow hhigh
  simp only [← BitVec.toNat_inj, packFields_toNat, toNat_extractLsb'_eq]
  omega

/-- R67: the fields of a packed word are those of its record. -/
theorem decodeRecord_packFields (r : Record) : decodeRecord (packFields r) = some r := by
  unfold decodeRecord reservedBitsClear
  rw [packFields_reservedBits, if_pos (beq_self_eq_true _)]
  cases r
  simp only [Option.some.injEq, Record.mk.injEq, ← BitVec.toNat_inj, toNat_extractLsb'_eq, packFields_toNat]
  omega

/-- R67: DECODE accepts exactly the packed records. -/
theorem decodeRecord_eq_some {w : Word} {r : Record} : decodeRecord w = some r ↔ w = packFields r := by
  refine ⟨fun h => ?_, fun h => h ▸ decodeRecord_packFields r⟩
  unfold decodeRecord at h
  split at h
  · rename_i hw
    cases h
    exact (packFields_extract (eq_of_beq hw)).symm
  · cases h

theorem packFields_injective : Function.Injective packFields := fun r _ h =>
  Option.some.inj ((decodeRecord_packFields r).symm.trans (decodeRecord_eq_some.2 h))

theorem sameController_raiseFieldOverflow (s : State) (f : Field) :
    Safety.SameController s (s.quiet.raiseFieldOverflow f) :=
  ⟨rfl, rfl, rfl, rfl, fun _ => rfl⟩

end Machine

open Machine Safety

/-! ### The obligations -/

/-- Settles O10: ENCODE and DECODE are each read as `packFields` of a record. -/
theorem encoderRoundTrip : Obligations.EncoderRoundTrip := by
  refine ⟨fun o m st sp ho hm hst hsp => ?_, fun w hw => ?_, fun o m st sp o' m' st' sp' w h h' => ?_⟩
  · have hr := Record.OnPorts.of_lt ho hm hst hsp
    exact ⟨_, _, encodeRecord_onPorts hr, packFields_reservedBits _, decodeRecord_packFields _, hr.toNat⟩
  · have hpack := packFields_extract hw
    exact ⟨_, decodeRecord_eq_some.2 hpack.symm, encodeRecord_eq_ok.2 ⟨_, ⟨rfl, rfl, rfl, rfl⟩, hpack.symm⟩⟩
  · obtain ⟨r, ⟨rfl, rfl, rfl, rfl⟩, rfl⟩ := encodeRecord_eq_ok.1 h
    obtain ⟨r', ⟨rfl, rfl, rfl, rfl⟩, hpack⟩ := encodeRecord_eq_ok.1 h'
    cases packFields_injective hpack
    exact ⟨rfl, rfl, rfl, rfl⟩

/-- Settles O7: the value of the packed record is the sum of its placed fields. -/
theorem encoderValue : Obligations.EncoderValue := by
  intro o m st sp ho hm hst hsp
  have hr := Record.OnPorts.of_lt ho hm hst hsp
  obtain ⟨hro, hrm, hrst, hrsp⟩ := hr.toNat
  exact ⟨_, encodeRecord_onPorts hr, by rw [packFields_toNat, hro, hrm, hrst, hrsp]⟩

/-- Settles O9: the high bits field by field; a step that ENCODE accepts has all ports in range. -/
theorem overflowIsHighBits : Obligations.OverflowIsHighBits := by
  refine ⟨fun v => ⟨overflows_iff_highBits v, overflows_iff_highBits v, overflows_iff_highBits v,
    overflows_iff_highBits v⟩, fun s hover => ?_⟩
  rcases s.encodeStep_cases with ⟨w, hok, _⟩ | ⟨f, _, hstep⟩
  · obtain ⟨r, ⟨ho, hm, hst, hsp⟩, _⟩ := encodeRecord_eq_ok.1 hok
    simp [ho, hm, hst, hsp, overflows_setWidth, Field.width] at hover
  · exact ⟨s.quiet.raiseFieldOverflow f, f, congrArg _ hstep, rfl, ⟨rfl, rfl⟩, sameController_raiseFieldOverflow s f⟩

/-- Settles O8: each outcome of ENCODE excludes the others. -/
theorem encoderRefuses : Obligations.EncoderRefuses := by
  intro o m st sp
  rcases encodeRecord_cases o m st sp with ⟨_, h⟩ | ⟨_, _, h⟩ | ⟨_, _, _, h⟩ | ⟨_, _, _, _, h⟩ | ⟨_, _, _, _, r, _, h⟩
  all_goals
    rw [h]
    simp only [Except.error.injEq, reduceCtorEq, true_iff, false_iff]
    omega

end Sys2Proof

/-! # The family 41_sequencer.md: the five issues, the five waits, and the writer's guarantee

All issues are one operation, `State.issue`, and all waits one, `waitStep`; each statement about the five is a case of
the lemma about a step `k`. A wait is followed turn by turn (`SpunOn`), a commit event by event: up to P_ACK,
every step that takes the phase on shows exactly the next event of `commitLog` (`Writing`). -/

namespace Sys2Proof

namespace Machine

/-! ### What an issue does, and what it hides (R73 to R81, R42) -/

/-- R73 to R81: an issue is taken when the contract covers its transfer. -/
theorem exec_issue_of_covers {s : State} (k : SeqStep) (hc : s.Covers (s.transfer k)) :
    exec k.issuePhase.operation s = .next (s.issue k) :=
  exec_issue_eq_next.2 ⟨hc, rfl⟩

/-- R42: a byte that the issued operation does not reach is seen as before. -/
theorem State.observeByte_issue {s : State} {k : SeqStep} {a : Nat} (hb : s.nvBusy = false)
    (ha : a < ((s.transfer k).pending.affected s.params).1 ∨ ((s.transfer k).pending.affected s.params).2 ≤ a) :
    (s.issue k).observeByte a = s.observeByte a :=
  State.observeByte_accept (op := s.transfer k) hb ha

/-- R42: a byte that the issued operation reaches has no value until it completes. -/
theorem State.observeByte_issue_disturbed {s : State} {k : SeqStep} {a : Nat}
    (hlo : ((s.transfer k).pending.affected s.params).1 ≤ a)
    (hhi : a < ((s.transfer k).pending.affected s.params).2) : (s.issue k).observeByte a = none :=
  State.observeByte_disturbed (s := s.issue k) rfl hlo hhi

end Machine

namespace Safety

open Machine

theorem issued_issue (s : State) (k : SeqStep) : Issued s (s.issue k) k (s.transfer k) (s.transfer k).pending :=
  ⟨rfl, rfl, rfl, rfl, rfl, ⟨rfl, rfl⟩, rfl, rfl, rfl, rfl, rfl, rfl, rfl, rfl, rfl, rfl, rfl, rfl⟩

/-! ### What a wait leaves alone (R83) -/

/-- R42: an observer sees no difference where the controller, the region and the parameters are as before. -/
theorem SameController.of_fields {s t : State} (hm : t.nvMode = s.nvMode) (hb : t.nvBusy = s.nvBusy)
    (hp : t.nvPending = s.nvPending) (hr : t.mem = s.mem) (hq : t.params = s.params) : SameController s t :=
  ⟨hm, hb, hp, hr, State.observeByte_congr hb hp hr hq⟩

theorem SameController.trans {s t u : State} (h : SameController s t) (h' : SameController t u) :
    SameController s u := by
  obtain ⟨hm, hb, hp, hr, ho⟩ := h
  obtain ⟨hm', hb', hp', hr', ho'⟩ := h'
  exact ⟨hm'.trans hm, hb'.trans hb, hp'.trans hp, hr'.trans hr, fun a => (ho' a).trans (ho a)⟩

theorem sameController_waitReady (s : State) (k : SeqStep) : SameController s (s.waitReady k) :=
  .of_fields (by simp) (by simp) (by simp) (by simp) (by simp)

theorem sameController_waitSpin (s : State) (k : SeqStep) : SameController s (s.waitSpin k) :=
  .of_fields rfl rfl rfl rfl rfl

theorem sameController_waitTimeout (s : State) (k : SeqStep) : SameController s (s.waitTimeout k) :=
  .of_fields rfl rfl rfl rfl rfl

theorem noTransfer_of_bus {t : State} (h : t.bus = .idle) : NoTransfer t :=
  ⟨h, by simp [State.nvCmd, h]⟩

theorem noEvent_of_diag {t : State} (h : t.diag = .none) : NoEvent t :=
  ⟨h, by simp [State.diagKind, h]⟩

/-! ### A wait, turn by turn (R83, R114) -/

/-- After a step that leaves the script alone, the turns still to come are the script's. -/
theorem upcoming_advance {s t : State} {x y : Turn} {rest : List Turn} (h : upcoming s = y :: x :: rest)
    (hs : t.script = s.script) : upcoming (advance t) = x :: rest := by
  obtain ⟨_, hmap⟩ := List.cons_eq_cons.1 h
  rw [← hs, List.map_eq_cons_iff] at hmap
  obtain ⟨c, cs, hscript, hc, hcs⟩ := hmap
  obtain ⟨hturn, _, hrest⟩ := advance_scripted hscript
  rw [upcoming, hturn, hrest, hc, hcs]

theorem upcoming_turn {s : State} {x : Turn} {rest : List Turn} (h : upcoming s = x :: rest) : s.turn = x :=
  List.head_eq_of_cons_eq h

/-- In a wait the block's turn is one read of the flag. -/
theorem step_wait {s : State} {k : SeqStep} (hl : s.params.legal = true) (ht : s.turn = .block)
    (hp : s.phase = k.waitPhase) : step s = .next (advance (waitStep k s)) := by
  rw [step_block hl ht, hp, exec_wait, onNext_next]

/-- From `s`, where the wait of step `k` begins, `n` not-ready answers lead to `t`. -/
structure SpunOn (k : SeqStep) (n : Nat) (s t : State) : Prop where
  phase : t.phase = k.waitPhase
  unlimited : s.params.pollLimit = none → t.pollcnt = 0
  limited : s.params.pollLimit ≠ none → t.pollcnt.toNat = n
  latch : t.latch = s.latch
  wstate : t.wstate = s.wstate
  W : t.W = s.W
  err : t.err = s.err
  restartReq : t.restartReq = s.restartReq
  controller : SameController s t
  params : t.params = s.params

section
variable {k : SeqStep} {n : Nat} {s t : State}

theorem SpunOn.start (hp : s.phase = k.waitPhase) (h0 : s.pollcnt = 0) : SpunOn k 0 s s :=
  ⟨hp, fun _ => h0, fun _ => by simp [h0], rfl, rfl, rfl, rfl, rfl, .of_fields rfl rfl rfl rfl rfl, rfl⟩

theorem SpunOn.busy (h : SpunOn k n s t) (hb : s.nvBusy = true) : t.nvBusy = true := by
  obtain ⟨_, hbusy, _⟩ := h.controller
  exact hbusy.trans hb

/-- R83: the limit is not reached by the next answer. -/
theorem SpunOn.not_expires (h : SpunOn k n s t) (hw : WithinLimit s.params (n + 1)) : t.pollExpires = false := by
  refine State.pollExpires_eq_false.2 fun l hl => ?_
  rw [h.params] at hl
  rw [h.limited (by simp [hl])]
  exact hw l hl

/-- R83: the limit is reached by the next answer. -/
theorem SpunOn.expires (h : SpunOn k n s t) (hl : s.params.pollLimit = some (n + 1)) : t.pollExpires = true := by
  have hcnt := h.limited (by simp [hl])
  simp [State.pollExpires, h.params, hl, hcnt]

/-- One more not-ready answer below the limit. -/
theorem SpunOn.spin (h : SpunOn k n s t) (hl : s.params.legal = true) (hw : WithinLimit s.params (n + 1)) :
    SpunOn k (n + 1) s (advance (t.waitSpin k)) where
  phase := by simp
  unlimited hn := by
    rw [advance_pollcnt, State.waitSpin_pollcnt, State.pollcntAfterBusy_unlimited (by rwa [h.params])]
    exact h.unlimited hn
  limited hn := by
    obtain ⟨l, hlim⟩ := Option.ne_none_iff_exists'.1 hn
    rw [← h.params] at hl hlim
    rw [advance_pollcnt, State.waitSpin_pollcnt, State.toNat_pollcntAfterBusy hlim hl (h.not_expires hw), h.limited hn]
  latch := by simp [h.latch]
  wstate := by simp [h.wstate]
  W := by simp [h.W]
  err := by simp [h.err]
  restartReq := by simp [h.restartReq]
  controller := (h.controller.trans (sameController_waitSpin t k)).trans (sameController_advance _)
  params := by simp [h.params]

/-- R83, R114: a busy controller keeps the block in its wait for as many turns as the limit allows. -/
theorem run_spins (hl : s.params.legal = true) (hp : s.phase = k.waitPhase) (hb : s.nvBusy = true) (h0 : s.pollcnt = 0)
    {x : Turn} {rest : List Turn} (hu : upcoming s = List.replicate n .block ++ x :: rest)
    (hw : WithinLimit s.params n) : ∃ t, run n s = .next t ∧ upcoming t = x :: rest ∧ SpunOn k n s t := by
  induction n generalizing x rest with
  | zero => exact ⟨s, rfl, hu, .start hp h0⟩
  | succ n ih =>
    rw [List.replicate_succ', List.append_assoc, List.singleton_append] at hu
    obtain ⟨t, hr, hut, hs⟩ := ih hu fun l hlim => Nat.lt_of_succ_lt (hw l hlim)
    refine ⟨_, ?_, upcoming_advance hut (State.waitSpin_script t k), hs.spin hl hw⟩
    rw [run_succ hr, step_wait (by rwa [hs.params]) (upcoming_turn hut) hs.phase,
      waitStep_spin k (hs.busy hb) (hs.not_expires hw)]

end

/-! ### A commit, event by event (R84) -/

/-- The bus events of a whole commit: the five transfers in order, each answered ready. -/
def commitLog (s : State) : List BusEvent :=
  [SeqStep.s1, .s2, .s3, .s4, .s5].flatMap fun k => [.transfer (s.transfer k), .answeredReady]

/-- The bus events of a commit up to a phase: each phase from P_S1_ISSUE to P_ACK comes after one event more. -/
def shownAt (s : State) (p : Phase) : List BusEvent :=
  (commitLog s).take (p.code.toNat - 2)

theorem shownAt_congr {s t : State} (hW : t.W = s.W) (hq : t.params = s.params) : shownAt t = shownAt s := by
  funext p
  simp [shownAt, commitLog, State.transfer, hW, hq]

theorem shownAt_waitPhase (s : State) (k : SeqStep) :
    shownAt s k.waitPhase = shownAt s k.issuePhase ++ [.transfer (s.transfer k)] := by
  cases k <;> rfl

theorem shownAt_nextPhase (s : State) (k : SeqStep) :
    shownAt s k.nextPhase = shownAt s k.waitPhase ++ [.answeredReady] := by
  cases k <;> rfl

theorem shownAt_restart (s : State) : shownAt s .restart = shownAt s .ack := rfl

@[simp] theorem waiting_waitPhase (k : SeqStep) : waiting k.waitPhase = true := by cases k <;> rfl

@[simp] theorem waiting_issuePhase (k : SeqStep) : waiting k.issuePhase = false := by cases k <;> rfl

@[simp] theorem busEvents_advance (s t : State) : busEvents s (advance t) = busEvents s t := by
  simp [busEvents]

/-- R84: a step of the controller shows nothing on the block's port. -/
theorem busEvents_controller {s : State} (ht : s.turn = .controller) : busEvents s (complete s) = [] := by
  simp [busEvents, ht]

/-- R84: in a commit the block's operation shows exactly the events that its next phase comes after. -/
theorem shownAt_blockEffect {p : Phase} {s t : State} (he : BlockEffect s p t) (hp : s.phase = p)
    (ht : s.turn = .block) (h2 : 2 ≤ p.code.toNat) (hf : t.phase ≠ .fault) :
    shownAt s p ++ busEvents s t = shownAt s t.phase := by
  cases he with
  | poll | encode _ | overflow _ => exact absurd h2 (by decide)
  | @issue k _ =>
    have hne : s.transfer k ≠ .idle := by cases k <;> exact nofun
    simp [busEvents, hp, hne, shownAt_waitPhase]
  | @ready k hb => simp [busEvents, hp, ht, State.ready, hb, shownAt_nextPhase]
  | timeout _ => exact absurd rfl hf
  | spin hb _ => simp [busEvents, hp, State.ready, hb]
  | ack => simp [busEvents, hp, waiting, shownAt_restart]
  | restart | held _ => simp [busEvents, hp, waiting]
  | halt => exact absurd hp hf

/-- What every state of a commit from `s` meets that has not timed out, once it has shown `es`. -/
structure Writing (s t : State) (es : List BusEvent) : Prop where
  seq : SequenceInv t
  W : t.W = s.W
  params : t.params = s.params
  begun : 2 ≤ t.phase.code.toNat
  shown : t.phase ≠ .fault → es = shownAt s t.phase

section
variable {s t u : State} {es : List BusEvent}

/-- R128, R72: the launch premise is what the invariant asks for at P_S1_ISSUE. -/
theorem Writing.start (h : LaunchPremise s) (hw : s.wstate = .readOnly) (hp : s.phase = .s1Issue) : Writing s s [] := by
  obtain ⟨hb, ho, hm, _⟩ := h
  refine ⟨(sequenceInv_issue (k := .s1) hp).2 ⟨hw, ⟨hb, ho, hm⟩, trivial⟩, rfl, rfl, ?_, fun _ => ?_⟩
  · rw [hp]; decide
  · rw [hp]; rfl

theorem Writing.block (h : Writing s t es) (ht : t.turn = .block) (he : BlockEffect t t.phase u) :
    Writing s u (es ++ busEvents t u) := by
  have hmem := he.phase_mem rfl
  obtain ⟨_, _, _, _, hq⟩ := he.sameWorld
  refine ⟨h.seq.blockEffect rfl he, ?_, hq.trans h.params, h.begun.trans (code_le_of_mem_successors hmem h.begun),
    fun hf => ?_⟩
  · rcases he.W_cases with ⟨_, hW⟩ | ⟨henc, _⟩
    · exact hW.trans h.W
    · exact absurd h.begun (by rw [henc]; decide)
  · have hft : t.phase ≠ .fault := fun hft => hf (by simpa [hft, successors] using hmem)
    rw [h.shown hft, ← shownAt_congr h.W h.params]
    exact shownAt_blockEffect he rfl ht h.begun hf

theorem Writing.controller (h : Writing s t es) (hl : t.params.legal = true) (ht : t.turn = .controller) :
    Writing s (complete t) (es ++ busEvents t (complete t)) := by
  rw [busEvents_controller ht, List.append_nil]
  exact ⟨h.seq.complete hl, by simp [h.W], by simp [h.params], by simpa using h.begun, by simpa using h.shown⟩

theorem Writing.advance (h : Writing s t es) : Writing s (advance t) es := by
  refine ⟨h.seq.congr ?_ ?_ ?_ ?_ ?_ ?_ ?_ ?_, by simp [h.W], by simp [h.params], by simpa using h.begun,
    by simpa using h.shown⟩
  all_goals simp

/-- R84: a run of the block and the controller keeps to the commit. -/
theorem Writing.run (h : Writing s s []) (hr : Runs s es t) : Writing s t es := by
  induction hr with
  | refl => exact h
  | @tail t u es _ hturn hst ih =>
    obtain ⟨hl, ⟨ht, v, hv, rfl⟩ | ⟨ht, rfl⟩ | ⟨fate, ht, rfl⟩ | ⟨op, v, ht, _, _, rfl⟩⟩ := step_cases hst
    · rw [busEvents_advance]
      exact (ih.block ht (.ofExec hv)).advance
    · rw [busEvents_advance]
      exact (ih.controller hl ht).advance
    · simp [ht] at hturn
    · simp [ht] at hturn

end

end Safety

open Machine Safety

/-! ### The obligations -/

/-- Settles O21: the store reaches the word at `CONFIG_ADDR`, and no other byte. -/
theorem storeIssue : Obligations.StoreIssue := by
  intro s hb hm hl
  obtain ⟨hbase, _⟩ := (Params.legal_iff _).1 hl
  have ha := Params.storable_configAddr hl
  have haff : (s.transfer .s4).pending.affected s.params =
      (s.params.configAddr.toNat, s.params.configAddr.toNat + 4) := by
    rw [State.transfer, BusOp.pending, Pending.affected, Params.programAddr_eq hbase ha]
  refine ⟨s.issue .s4, exec_issue_of_covers .s4 ⟨hb, hm, ha⟩, issued_issue s .s4, rfl, rfl, rfl, fun a hout => ?_,
    fun a hlo hhi => ?_⟩
  · exact State.observeByte_issue hb (by rwa [haff])
  · exact State.observeByte_issue_disturbed (by rwa [haff]) (by rwa [haff])

/-- Settles O26, by induction on the number of turns (`run_spins`). -/
theorem waitSpinsOn : Obligations.WaitSpinsOn := by
  intro k n s x rest hl hp hb h0 hu hw
  obtain ⟨t, hr, hut, h⟩ := run_spins hl hp hb h0 hu hw
  exact ⟨t, hr, h.phase, hut, h.unlimited, h.limited, h.latch, h.wstate, h.W, h.err, h.restartReq, h.controller, h.params⟩

/-- Settles O27: below the limit the wait spins on, and the answer after `l - 1` spins reaches it. -/
theorem waitTimesOut : Obligations.WaitTimesOut := by
  intro k l s rest hl hlim hp hb h0 hu
  have hspun {n : Nat} (hn : n < l) : ∃ t rest', run n s = .next t ∧ upcoming t = .block :: rest' ∧ SpunOn k n s t := by
    have hturns : List.replicate l Turn.block ++ rest =
        List.replicate n .block ++ .block :: (List.replicate (l - n - 1) .block ++ rest) := by
      rw [← List.cons_append, ← List.replicate_succ, ← List.append_assoc, List.replicate_append_replicate]
      congr 2
      omega
    obtain ⟨t, hr, hut, h⟩ := run_spins hl hp hb h0 (hu.trans hturns) fun m hm => by
      rw [hlim, Option.some.injEq] at hm
      omega
    exact ⟨t, _, hr, hut, h⟩
  refine ⟨fun n hn => ?_, ?_⟩
  · obtain ⟨t, _, hr, _, h⟩ := hspun hn
    exact ⟨t, hr, h.phase⟩
  · obtain ⟨_, _, _, _, _, hlegal⟩ := (Params.legal_iff _).1 hl
    obtain ⟨m, rfl⟩ := Nat.exists_eq_add_of_le' (hlegal l hlim).1
    obtain ⟨t, rest', hr, hut, h⟩ := hspun (Nat.lt_succ_self m)
    have hst : run (m + 1) s = .next (advance (t.waitTimeout k)) := by
      rw [run_succ hr, step_wait (by rwa [h.params]) (upcoming_turn hut) h.phase,
        waitStep_timeout k (h.busy hb) (h.expires hlim)]
    refine ⟨_, hst, by simp, by simp, by simp [h.restartReq], by simp [h.wstate], by simp [h.W], ?_⟩
    exact (h.controller.trans (sameController_waitTimeout t k)).trans (sameController_advance _)

/-- Settles O52: the invariant of R25 holds along the run, and P_ACK comes after the whole log. -/
theorem writerGuarantee : Obligations.WriterGuarantee := by
  intro s t w es hlaunch hw hp hW hr hack
  have ⟨_, _, _, hl⟩ := hlaunch
  have h := (Writing.start hlaunch hw hp).run hr
  have hlt : t.params.legal = true := by rwa [h.params]
  obtain ⟨hwstate, hmode, hbusy⟩ := h.seq.readOnly (by simp [hack])
  obtain ⟨htarget, _⟩ := h.seq.target_seen hlt (by simp [hack])
  refine ⟨by rw [htarget, h.W, hW], h.params, fun i hi hne => h.seq.others_seen (by simp [hack]) hi hne, hmode, hbusy,
    hwstate, ?_⟩
  rw [h.shown (by simp [hack]), hack, ← hW]
  rfl

/-- Settles O19: a mode write in flight reaches no byte of the region. -/
theorem modeIssues : Obligations.ModeIssues := by
  intro s hb
  refine ⟨⟨s.issue .s1, exec_issue_of_covers .s1 hb, issued_issue s .s1, rfl, rfl, fun a => ?_⟩,
    ⟨s.issue .s3, exec_issue_of_covers .s3 hb, issued_issue s .s3, rfl, rfl, fun a => ?_⟩,
    ⟨s.issue .s5, exec_issue_of_covers .s5 hb, issued_issue s .s5, rfl, rfl, fun a => ?_⟩⟩
  all_goals exact State.observeByte_issue hb (.inr (Nat.zero_le a))

/-- Settles O20: an erase in flight reaches the bytes of the region and no other. -/
theorem eraseIssue : Obligations.EraseIssue := by
  intro s hb hm
  exact ⟨s.issue .s2, exec_issue_of_covers .s2 ⟨hb, hm⟩, issued_issue s .s2, rfl,
    fun a hout => State.observeByte_issue hb hout, fun a hlo hhi => State.observeByte_issue_disturbed hlo hhi⟩

/-- Settles O23: the ready branch of the wait, step by step of the sequence. -/
theorem waitReady : Obligations.WaitReady := by
  intro k s hb
  refine ⟨waitStep k s, by cases k <;> rfl, ?_⟩
  rw [waitStep_ready k hb]
  refine ⟨by cases k <;> rfl, by cases k <;> rfl, rfl, by simp, by simp, by simp, by simp, noTransfer_of_bus (by simp),
    noEvent_of_diag (by simp), sameController_waitReady s k, by simp [SameWorld]⟩

/-- Settles O24: the spinning branch of the wait, with a limit and without. -/
theorem waitSpins : Obligations.WaitSpins := by
  intro k s hb hw
  refine ⟨waitStep k s, by cases k <;> rfl, ?_⟩
  rw [waitStep_spin k hb (State.pollExpires_eq_false.2 hw)]
  refine ⟨rfl, fun hn => State.pollcntAfterBusy_unlimited hn, fun hn => ?_, rfl, rfl, rfl, rfl, rfl, noTransfer_of_bus rfl,
    noEvent_of_diag rfl, sameController_waitSpin s k, ⟨rfl, rfl, rfl, rfl, rfl⟩⟩
  obtain ⟨l, hl⟩ := Option.ne_none_iff_exists'.1 hn
  exact State.pollcntAfterBusy_limited hl

end Sys2Proof

/-! # The family 42_trigger.md: POLL, and who reads the input ports

A poll leaves in the latch whether its sample was pressed (`pollLatch_eq_latched`), so the latch a poll finds is the sample
before its own, and the requests of a list of polls are the edges of its samples. Of the input ports POLL reads the pin and
ENCODE the parameters; every other operation commutes with replacing them (`exec_withPins`). -/

namespace Sys2Proof

/-! ### Request and latch of a poll (R88) -/

/-- R88, R89: after a poll the latch tells whether the sample was pressed, whatever it held before. -/
theorem pollLatch_eq_latched {l : Latch} {v : Level} : pollLatch l v = .latched ↔ v = .pressed := by
  cases l <;> cases v <;> decide

/-- R88: a request is a pressed sample that finds the latch armed. -/
theorem pollRequest_eq (l : Latch) (v : Level) :
    pollRequest l v = (decide (v = .pressed) && !decide (l = .latched)) := by
  cases l <;> cases v <;> rfl

namespace Machine

/-- The state after POLL (R88). -/
def State.polled (s : State) : State :=
  { s.quiet with
    latch := pollLatch s.latch s.sample
    phase := if pollRequest s.latch s.sample then .encode else .idle }

/-- R88: POLL always answers a next state. -/
theorem exec_poll (s : State) : exec .poll s = .next s.polled := rfl

/-- R88: the row of the table that the latch and the pin select. -/
theorem State.polled_row {s : State} {l : Latch} {v : Level} (hl : s.latch = l) (hv : s.pins.btnLevel = v) :
    s.polled.latch = pollLatch l v ∧ s.polled.phase = if pollRequest l v then .encode else .idle := by
  subst hl hv
  exact ⟨rfl, rfl⟩

theorem State.polled_latch_eq_latched {s : State} : s.polled.latch = .latched ↔ s.sample = .pressed :=
  pollLatch_eq_latched

/-- R88: a poll leads to P_ENCODE exactly when it requests. -/
theorem State.polled_phase_eq_encode {s : State} :
    s.polled.phase = .encode ↔ pollRequest s.latch s.sample = true := by
  simp [State.polled]

theorem sameController_polled (s : State) : Safety.SameController s s.polled :=
  .of_fields rfl rfl rfl rfl rfl

/-- R43: a transfer that the contract does not cover is a violation. -/
theorem exec_busOp_of_not_covers {op : BusOp} {s : State} (hop : op ≠ .idle) (hc : ¬ s.Covers op) :
    exec op.operation s = .fault .nvContractViolation := by
  cases op with
  | idle => exact absurd rfl hop
  | mode m => exact busNvMode_eq_fault.2 (by simpa [State.Covers] using hc)
  | erase => exact busNvErase_eq_fault.2 (by simpa [State.Covers, imp_iff_not_or] using hc)
  | write a v => exact busMemWrite_eq_fault.2 (by simpa [State.Covers, imp_iff_not_or] using hc)

/-! ### Replacing the input ports (R13, R91, R96) -/

/-- The input ports at the levels given, everything else as it is. -/
def State.withPins (p : Pins) (s : State) : State :=
  { s with pins := p }

section
variable (p : Pins) (s : State)

@[simp] theorem State.withPins_pins : (s.withPins p).pins = p := rfl
@[simp] theorem State.withPins_latch : (s.withPins p).latch = s.latch := rfl
@[simp] theorem State.withPins_restartReq : (s.withPins p).restartReq = s.restartReq := rfl
@[simp] theorem State.withPins_ready : (s.withPins p).ready = s.ready := rfl
@[simp] theorem State.withPins_pollExpires : (s.withPins p).pollExpires = s.pollExpires := rfl

/-- R91: POLL reads the pin and no other port. -/
theorem State.polled_withPins (h : p.btnLevel = s.pins.btnLevel) : (s.withPins p).polled = s.polled.withPins p := by
  simp only [State.polled, State.sample, State.withPins_pins, State.withPins_latch, h]
  rfl

/-- R96: ENCODE reads the four parameter ports and not the pin. -/
theorem State.encodeStep_withPins (ho : p.pOffset = s.pins.pOffset) (hm : p.pMode = s.pins.pMode)
    (hst : p.pStatus = s.pins.pStatus) (hsp : p.pSetpoint = s.pins.pSetpoint) :
    (s.withPins p).encodeStep = s.encodeStep.withPins p := by
  unfold State.encodeStep
  rw [State.withPins_pins, ho, hm, hst, hsp]
  split <;> rfl

theorem waitStep_withPins (k : SeqStep) : waitStep k (s.withPins p) = (waitStep k s).withPins p := by
  unfold waitStep
  rw [State.withPins_ready, State.withPins_pollExpires]
  split_ifs
  · cases k <;> rfl
  · rfl
  · rfl

theorem execRestart_withPins : execRestart (s.withPins p) = onNext (State.withPins p) (execRestart s) := by
  unfold execRestart
  rw [State.withPins_restartReq]
  split <;> rfl

theorem State.withPins_covers (op : BusOp) : (s.withPins p).Covers op ↔ s.Covers op := by cases op <;> rfl

/-- R37 to R40: the controller's answer to a command does not depend on the block's input ports. -/
theorem exec_busOp_withPins (op : BusOp) :
    exec op.operation (s.withPins p) = onNext (State.withPins p) (exec op.operation s) := by
  by_cases hidle : op = .idle
  · rw [hidle]
    rfl
  · by_cases hc : s.Covers op
    · rw [exec_busOp_of_covers hc, exec_busOp_of_covers ((s.withPins_covers p op).2 hc)]
      rfl
    · rw [exec_busOp_of_not_covers hidle hc, exec_busOp_of_not_covers hidle (mt (s.withPins_covers p op).1 hc)]
      rfl

/-- R73, R75, R77, R79, R81: an issue is its transfer as a bus operation, and then the wait is entered. -/
theorem exec_issue_eq_onNext (k : SeqStep) :
    exec k.issuePhase.operation s = onNext (fun t => t.enterWait k) (exec (s.transfer k).operation s) := by
  cases k <;> rfl

theorem exec_issue_withPins (k : SeqStep) :
    exec k.issuePhase.operation (s.withPins p) = onNext (State.withPins p) (exec k.issuePhase.operation s) := by
  have htransfer : (s.withPins p).transfer k = s.transfer k := by cases k <;> rfl
  rw [exec_issue_eq_onNext, exec_issue_eq_onNext, htransfer, exec_busOp_withPins]
  cases exec (s.transfer k).operation s <;> rfl

/-- R91, R96: no operation but POLL and ENCODE reads an input port. -/
theorem exec_withPins {i : Instr} (hpoll : i ≠ .poll) (hencode : i ≠ .encode) :
    exec i (s.withPins p) = onNext (State.withPins p) (exec i s) := by
  cases i with
  | poll => exact absurd rfl hpoll
  | encode => exact absurd rfl hencode
  | modeEraseEn => exact exec_issue_withPins p s .s1
  | eraseRegion => exact exec_issue_withPins p s .s2
  | modeWriteEn => exact exec_issue_withPins p s .s3
  | storeWord => exact exec_issue_withPins p s .s4
  | modeReadOnly => exact exec_issue_withPins p s .s5
  | wait1 => exact congrArg Host.Outcome.next (waitStep_withPins p s .s1)
  | wait2 => exact congrArg Host.Outcome.next (waitStep_withPins p s .s2)
  | wait3 => exact congrArg Host.Outcome.next (waitStep_withPins p s .s3)
  | wait4 => exact congrArg Host.Outcome.next (waitStep_withPins p s .s4)
  | wait5 => exact congrArg Host.Outcome.next (waitStep_withPins p s .s5)
  | restart => exact execRestart_withPins p s
  | nvMode m => exact exec_busOp_withPins p s (.mode m)
  | nvErase => exact exec_busOp_withPins p s .erase
  | memWrite a v => exact exec_busOp_withPins p s (.write a v)
  | ack | halt | nvReady | packedWord _ => rfl

end

end Machine

open Machine Safety

/-! ### A list of polls (R89) -/

theorem pollRequests_cons (lvl : Level) (rest : List Level) (s : State) :
    pollRequests (lvl :: rest) s =
      decide ((s.withPins { s.pins with btnLevel := lvl }).polled.phase = .encode) ::
        pollRequests rest (s.withPins { s.pins with btnLevel := lvl }).polled := rfl

/-- R89: the latch that a poll finds stands for the sample before its own. -/
theorem pollRequests_eq_pressEdges (lvls : List Level) (s : State) :
    pollRequests lvls s = pressEdges (decide (s.latch = .latched)) lvls := by
  induction lvls generalizing s with
  | nil => rfl
  | cons lvl rest ih =>
    rw [pollRequests_cons, ih, pressEdges]
    simp only [State.polled_phase_eq_encode, State.polled_latch_eq_latched, State.sample, State.withPins_pins,
      State.withPins_latch, pollRequest_eq, Bool.decide_eq_true]

/-! ### The obligations -/

/-- Settles O12, by induction on the samples; a reset leaves the latch armed. -/
theorem oneRequestPerPress : Obligations.OneRequestPerPress :=
  ⟨pollRequests_eq_pressEdges, fun lvls p => pollRequests_eq_pressEdges lvls (State.resetWith p)⟩

/-- Settles O50: the two readers by the ports they read, the other operations by `exec_withPins`. -/
theorem inputsRead : Obligations.InputsRead := fun _ s p =>
  ⟨exec_withPins p s, fun hpin => congrArg Host.Outcome.next (s.polled_withPins p hpin),
    fun ho hm hst hsp => congrArg Host.Outcome.next (s.encodeStep_withPins p ho hm hst hsp)⟩

/-- Settles O11, row by row of the table. -/
theorem pollTable : Obligations.PollTable := fun s =>
  ⟨s.polled, exec_poll s, State.polled_row, State.polled_row, State.polled_row, State.polled_row, rfl, rfl, rfl, rfl, rfl,
    noTransfer_of_bus rfl, noEvent_of_diag rfl, sameController_polled s, ⟨rfl, rfl, rfl, rfl, rfl⟩⟩

end Sys2Proof

/-! # The family 43_controller.md: the controller's own operations, and a press from end to end

A run on known turns is put together from shorter ones: `Leads turns P Q` says that these turns lead from any state that
meets `P` to one that meets `Q`. The five steps of the sequence are one such lemma about a step `k`
(`leads_sequenceStep`), carried along by what every state of a commit past ENCODE meets (`OnTrack`). -/

namespace Sys2Proof

namespace Machine

open Safety

/-! ### ENCODE, ACK, RESTART, and a poll that requests (R88, R96 to R102) -/

/-- R96: ports in range are taken over into `W`. -/
theorem exec_encode_of_ok {s : State} {w : Word} (h : PortsEncodeTo s.pins w) :
    exec .encode s = .next (s.quiet.commitWord w) := by
  rcases s.encodeStep_cases with ⟨v, hv, hstep⟩ | ⟨f, hf, _⟩
  · cases h.symm.trans hv
    exact congrArg _ hstep
  · cases h.symm.trans hf

/-- R98: ports out of range raise FieldOverflow. -/
theorem exec_encode_of_error {s : State} {f : Field}
    (h : encodeRecord s.pins.pOffset s.pins.pMode s.pins.pStatus s.pins.pSetpoint = .error f) :
    exec .encode s = .next (s.quiet.raise (.fieldOverflow f) .idle) := by
  rcases s.encodeStep_cases with ⟨w, hw, _⟩ | ⟨g, hg, hstep⟩
  · cases h.symm.trans hw
  · cases h.symm.trans hg
    exact congrArg _ hstep

/-- R102: after RESTART the line is up, whether it was before or not. -/
theorem exec_restart (s : State) : exec .restart s = .next { s.quiet with restartReq := true } := by
  cases hr : s.restartReq with
  | false => simp [exec, execRestart, hr]
  | true =>
    have hheld : s.quiet = { s.quiet with restartReq := true } := by rw [← hr]; rfl
    simpa [exec, execRestart, hr] using hheld

/-- R88: a pressed sample that finds the latch armed leads to P_ENCODE. -/
theorem State.polled_press {s : State} (ha : s.latch = .armed) (hb : s.pins.btnLevel = .pressed) :
    s.polled.latch = .latched ∧ s.polled.phase = .encode :=
  State.polled_row ha hb

@[simp] theorem State.polled_W (s : State) : s.polled.W = s.W := rfl
@[simp] theorem State.polled_restartReq (s : State) : s.polled.restartReq = s.restartReq := rfl
@[simp] theorem State.polled_bus (s : State) : s.polled.bus = .idle := rfl

theorem step_poll {s : State} (hl : s.params.legal = true) (ht : s.turn = .block) (hp : s.phase = .idle) :
    step s = .next (advance s.polled) := by
  rw [step_block hl ht, hp]
  rfl

end Machine

namespace Safety

open Machine

/-! ### Runs on known turns -/

/-- A run goes on from the state that its first `m` steps have reached. -/
theorem run_add {m : Nat} (n : Nat) {s t : State} (h : run m s = .next t) : run (m + n) s = run n t := by
  induction m generalizing s with
  | zero =>
    cases h
    rw [Nat.zero_add]
  | succ m ih =>
    rw [Nat.succ_add]
    simp only [run, Host.Core.run] at h ⊢
    cases hu : Sys2Proof.core.step s with
    | next u =>
      rw [hu] at h
      exact ih h
    | fault r => simp [hu] at h
    | refused r => simp [hu] at h

theorem run_one (s : State) : run 1 s = step s := run_succ rfl

/-- When the next turns are `turns`, and a turn after them is known, they lead from a state that meets `P` to one that
meets `Q`. -/
def Leads (turns : List Turn) (P Q : State → Prop) : Prop :=
  ∀ (s : State) (x : Turn) (rest : List Turn), P s → upcoming s = turns ++ x :: rest →
    ∃ t, run turns.length s = .next t ∧ Q t ∧ upcoming t = x :: rest

section
variable {turns turns' : List Turn} {P Q R : State → Prop}

theorem Leads.append (h : Leads turns P Q) (h' : Leads turns' Q R) : Leads (turns ++ turns') P R := by
  intro s x rest hs hu
  obtain ⟨y, ys, hy⟩ : ∃ y ys, turns' ++ x :: rest = y :: ys := List.exists_cons_of_ne_nil (by simp)
  rw [List.append_assoc, hy] at hu
  obtain ⟨t, hr, ht, hut⟩ := h s y ys hs hu
  obtain ⟨u, hr', hu, huu⟩ := h' t x rest ht (hut.trans hy.symm)
  exact ⟨u, by rw [List.length_append, run_add _ hr, hr'], hu, huu⟩

theorem leads_block
    (h : ∀ s, P s → s.params.legal = true ∧ ∃ u, exec s.phase.operation s = .next u ∧ Q (advance u)) :
    Leads [.block] P Q := by
  intro s x rest hs hu
  obtain ⟨hl, u, he, hq⟩ := h s hs
  obtain ⟨_, _, hscript, _⟩ := (BlockEffect.ofExec he).sameWorld
  refine ⟨advance u, ?_, hq, upcoming_advance hu hscript⟩
  rw [List.length_singleton, run_one, step_block hl (upcoming_turn hu), he, onNext_next]

theorem leads_controller (h : ∀ s, P s → s.params.legal = true ∧ Q (advance (complete s))) :
    Leads [.controller] P Q := by
  intro s x rest hs hu
  obtain ⟨hl, hq⟩ := h s hs
  refine ⟨advance (complete s), ?_, hq, upcoming_advance hu (complete_script s)⟩
  rw [List.length_singleton, run_one, step_controller hl (upcoming_turn hu)]

end

/-! ### How many turns a commit takes (R145) -/

theorem length_stepTurns (n : Nat) : (stepTurns n).length = n + 3 := by
  simp [stepTurns]

theorem countP_block_stepTurns (n : Nat) : (stepTurns n).countP (fun x => decide (x = Turn.block)) = n + 2 := by
  simp [stepTurns, List.countP_append, List.countP_replicate]

/-- R145: the steps of the block in a commit. -/
theorem length_block_commitTurns (k : SeqStep → Nat) :
    ((Turn.block :: commitTurns k).filter (fun x => decide (x = Turn.block))).length = 14 + totalSpins k := by
  rw [← List.countP_eq_length_filter]
  simp only [commitTurns, List.countP_append, List.countP_cons, List.countP_nil, countP_block_stepTurns, totalSpins,
    decide_true, if_true]
  omega

/-! ### A commit on the turns of R145 -/

/-- What holds from P_S1_ISSUE on, at phase `p` of a commit of `w` that has met no error. -/
structure OnTrack (q : Params) (w : Word) (p : Phase) (t : State) : Prop where
  phase : t.phase = p
  seq : SequenceInv t
  W : t.W = w
  err : t.err = .noError
  params : t.params = q

/-- The request has been made, and the ports carry a record that packs to `w`. -/
structure Requested (q : Params) (w : Word) (t : State) : Prop where
  phase : t.phase = .encode
  seq : SequenceInv t
  ports : PortsEncodeTo t.pins w
  params : t.params = q

/-- Step `k` has been issued, and its wait has not read the flag yet. -/
structure JustIssued (q : Params) (w : Word) (k : SeqStep) (t : State) : Prop extends OnTrack q w k.waitPhase t where
  busy : t.nvBusy = true
  unread : t.pollcnt = 0

/-- The operation of step `k` has completed, and its wait has not read this yet. -/
structure Landed (q : Params) (w : Word) (k : SeqStep) (t : State) : Prop extends OnTrack q w k.waitPhase t where
  ready : t.nvBusy = false

section
variable {q : Params} {w : Word} {p p' : Phase} {s t : State} {k : SeqStep}

theorem SequenceInv.advance (h : SequenceInv s) : SequenceInv (advance s) :=
  h.congr (by simp) (by simp) (by simp) (by simp) (by simp) (by simp) (by simp) (by simp)

theorem OnTrack.advance (h : OnTrack q w p s) : OnTrack q w p (advance s) :=
  ⟨by simp [h.phase], h.seq.advance, by simp [h.W], by simp [h.err], by simp [h.params]⟩

/-- An operation of the block that writes neither `W` nor `err` keeps a commit on track. -/
theorem OnTrack.block (h : OnTrack q w p s) (he : BlockEffect s p t) (hp : t.phase = p') (hW : t.W = s.W)
    (herr : t.err = s.err) : OnTrack q w p' t := by
  obtain ⟨_, _, _, _, hq⟩ := he.sameWorld
  exact ⟨hp, h.seq.blockEffect h.phase he, hW.trans h.W, herr.trans h.err, hq.trans h.params⟩

theorem OnTrack.complete (h : OnTrack q w p s) (hl : q.legal = true) : OnTrack q w p (complete s) :=
  ⟨by simp [h.phase], h.seq.complete (by rwa [h.params]), by simp [h.W], by simp [h.err], by simp [h.params]⟩

/-- Not-ready answers keep a commit on track. -/
theorem OnTrack.spunOn {n : Nat} (h : OnTrack q w k.waitPhase s) (hs : SpunOn k n s t) :
    OnTrack q w k.waitPhase t := by
  obtain ⟨hm, hb, ho, hr, _⟩ := hs.controller
  exact ⟨hs.phase, h.seq.congr (hs.phase.trans h.phase.symm) hs.wstate hs.W hm hb ho hr hs.params,
    hs.W.trans h.W, hs.err.trans h.err, hs.params.trans h.params⟩

end

section
variable {q : Params} (hl : q.legal = true) {w : Word}
include hl

/-- R96: the ENCODE of a request. -/
theorem leads_encode : Leads [.block] (Requested q w) (OnTrack q w .s1Issue) := by
  refine leads_block fun s h => ⟨by rwa [h.params], s.quiet.commitWord w, ?_, OnTrack.advance ?_⟩
  · rw [h.phase]
    exact exec_encode_of_ok h.ports
  · exact ⟨rfl, h.seq.blockEffect h.phase (.encode h.ports), rfl, rfl, h.params⟩

/-- R73 to R81: the issue of step `k`. -/
theorem leads_issue (k : SeqStep) : Leads [.block] (OnTrack q w k.issuePhase) (JustIssued q w k) := by
  refine leads_block fun s h => ?_
  have hls : s.params.legal = true := by rwa [h.params]
  have hc := h.seq.covers hls h.phase
  refine ⟨hls, s.issue k, ?_, (h.block (.issue hc) rfl rfl rfl).advance, by simp, by simp⟩
  rw [h.phase]
  exact exec_issue_of_covers k hc

/-- R83: the not-ready answers of step `k`. -/
theorem leads_spins (k : SeqStep) {n : Nat} (hn : WithinLimit q n) :
    Leads (List.replicate n .block) (JustIssued q w k) (OnTrack q w k.waitPhase) := by
  intro s x rest h hu
  obtain ⟨t, hr, hut, hs⟩ := run_spins (by rwa [h.params]) h.phase h.busy h.unread hu (by rwa [h.params])
  exact ⟨t, by rwa [List.length_replicate], h.spunOn hs, hut⟩

/-- R41: the completion of the operation of step `k`. -/
theorem leads_complete (k : SeqStep) : Leads [.controller] (OnTrack q w k.waitPhase) (Landed q w k) :=
  leads_controller fun _ h => ⟨by rwa [h.params], (h.complete hl).advance, by simp⟩

/-- R83: the ready answer of step `k`. -/
theorem leads_ready (k : SeqStep) : Leads [.block] (Landed q w k) (OnTrack q w k.nextPhase) := by
  refine leads_block fun s h => ⟨by rwa [h.params], s.waitReady k, ?_, ?_⟩
  · rw [h.phase, exec_wait, waitStep_ready k h.ready]
  · exact (h.block (.ready h.ready) rfl (by simp) (by simp)).advance

/-- R63, R145: step `k` of the sequence with `n` not-ready answers. -/
theorem leads_sequenceStep (k : SeqStep) {n : Nat} (hn : WithinLimit q n) :
    Leads (stepTurns n) (OnTrack q w k.issuePhase) (OnTrack q w k.nextPhase) :=
  (leads_issue hl k).append ((leads_spins hl k hn).append ((leads_complete hl k).append (leads_ready hl k)))

/-- R100: ACK. -/
theorem leads_ack : Leads [.block] (OnTrack q w .ack) (OnTrack q w .restart) := by
  refine leads_block fun s h => ⟨by rwa [h.params], _, ?_, (h.block .ack rfl rfl rfl).advance⟩
  rw [h.phase]
  rfl

/-- R105 (a): from ENCODE to P_RESTART. -/
theorem leads_commit {k : SeqStep → Nat} (hk : ∀ j, WithinLimit q (k j)) :
    Leads ([.block] ++ stepTurns (k .s1) ++ stepTurns (k .s2) ++ stepTurns (k .s3) ++ stepTurns (k .s4) ++
      stepTurns (k .s5) ++ [.block]) (Requested q w) (OnTrack q w .restart) :=
  ((((((leads_encode hl).append (leads_sequenceStep hl .s1 (hk .s1))).append
    (leads_sequenceStep hl .s2 (hk .s2))).append (leads_sequenceStep hl .s3 (hk .s3))).append
    (leads_sequenceStep hl .s4 (hk .s4))).append (leads_sequenceStep hl .s5 (hk .s5))).append (leads_ack hl)

end

/-- R102: RESTART at the end of a commit raises the line. -/
theorem OnTrack.restarts {q : Params} {w : Word} {t : State} (h : OnTrack q w .restart t) (hl : q.legal = true)
    (ht : t.turn = .block) : ∃ u, step t = .next u ∧ OnTrack q w .restart u ∧ u.restartReq = true := by
  refine ⟨Machine.advance { t.quiet with restartReq := true }, ?_, ?_, by simp⟩
  · rw [step_block (by rwa [h.params]) ht, h.phase]
    exact congrArg (onNext Machine.advance) (exec_restart t)
  · exact (h.block .restart h.phase rfl rfl).advance

/-- R128, R88: under the launch premise a press is a request, and ENCODE will read the ports of the step after it. -/
theorem requested_of_press {s : State} {w : Word} {c : Stimulus} {cs : List Stimulus} (hlaunch : LaunchPremise s)
    (hw : s.wstate = .readOnly) (hp : s.phase = .idle) (ha : s.latch = .armed) (hb : s.pins.btnLevel = .pressed)
    (hscript : s.script = c :: cs) (hports : PortsEncodeTo c.pins w) :
    Requested s.params w (advance s.polled) := by
  obtain ⟨hbusy, hpend, hmode, _⟩ := hlaunch
  have hseq : SequenceInv s := sequenceInv_of_readOnly (by simp [hp]) hw ⟨hbusy, hpend, hmode⟩
  obtain ⟨_, hphase⟩ := State.polled_press ha hb
  obtain ⟨_, hpins, _⟩ := advance_scripted (s := s.polled) hscript
  exact ⟨by rw [advance_phase, hphase], (hseq.blockEffect hp .poll).advance, hpins ▸ hports, advance_params _⟩

/-- R105 (a): a press leads through a whole commit, and its RESTART. -/
theorem run_commit {s : State} {w : Word} {k : SeqStep → Nat} {rest : List Turn} (hl : s.params.legal = true)
    (hp : s.phase = .idle) (hreq : Requested s.params w (advance s.polled))
    (hu : upcoming s = .block :: (commitTurns k ++ rest)) (hk : ∀ j, WithinLimit s.params (k j)) :
    ∃ t, run (19 + totalSpins k) s = .next t ∧ OnTrack s.params w .restart t ∧ t.restartReq = true := by
  have hpoll : Leads [.block] (· = s) (Requested s.params w) := by
    refine leads_block fun t ht => ?_
    rw [ht]
    exact ⟨hl, s.polled, by rw [hp]; exact exec_poll s, hreq⟩
  obtain ⟨t, hr, ht, hut⟩ := (hpoll.append (leads_commit hl hk)) s .block rest rfl
    (hu.trans (by simp [commitTurns]))
  obtain ⟨u, hst, hu, hreq⟩ := ht.restarts hl (upcoming_turn hut)
  refine ⟨u, ?_, hu, hreq⟩
  rw [← hst, ← run_succ hr]
  congr 1
  simp only [totalSpins, List.length_append, List.length_singleton, length_stepTurns]
  omega

end Safety

open Machine Safety

/-! ### The obligations -/

/-- Settles O53: on the turns of a commit (`run_commit`), whose last state meets R25's invariant for P_RESTART. -/
theorem commitSucceeds : Obligations.CommitSucceeds := by
  intro s w k c cs rest hlaunch hw hp ha hb hscript hports hu hk
  have ⟨_, _, _, hl⟩ := hlaunch
  refine ⟨length_block_commitTurns k, ?_⟩
  obtain ⟨t, hr, ht, hreq⟩ := run_commit hl hp (requested_of_press hlaunch hw hp ha hb hscript hports) hu hk
  have hrestart := ht.phase
  obtain ⟨htarget, _⟩ := ht.seq.target_seen (by rwa [ht.params]) (by simp [hrestart])
  obtain ⟨_, hmode, hbusy⟩ := ht.seq.readOnly (by simp [hrestart])
  exact ⟨t, hr, ⟨hrestart, hreq⟩, ht.W, ht.err, htarget.trans (by rw [ht.W]),
    fun i hi hne => ht.seq.others_seen (by simp [hrestart]) hi hne, hmode, hbusy, ht.params⟩

/-- Settles O54: the poll of the press, then an ENCODE that refuses the ports of its step. -/
theorem overflowReturns : Obligations.OverflowReturns := by
  intro s f c cs rest hl hp ha hb hscript hover hu
  obtain ⟨hlatch, hphase⟩ := State.polled_press ha hb
  obtain ⟨_, hpins, _⟩ := advance_scripted (s := s.polled) hscript
  have hrun : run 1 s = .next (advance s.polled) := (run_one s).trans (step_poll hl (upcoming_turn hu) hp)
  have hturn : (advance s.polled).turn = .block := upcoming_turn (upcoming_advance (t := s.polled) hu rfl)
  have hstep : step (advance s.polled) = .next (advance ((advance s.polled).quiet.raise (.fieldOverflow f) .idle)) := by
    rw [step_block (by rwa [advance_params]) hturn, advance_phase, hphase]
    exact congrArg (onNext advance) (exec_encode_of_error (by rwa [hpins]))
  refine ⟨_, _, hrun, noTransfer_of_bus (by simp), (run_succ hrun).trans hstep, noTransfer_of_bus (by simp), by simp,
    by simp [hlatch], by simp, by simp, by simp, ?_⟩
  exact (((sameController_polled s).trans (sameController_advance _)).trans
    (sameController_raiseFieldOverflow _ f)).trans (sameController_advance _)

/-- Settles O14, by the accepting branch of ENCODE. -/
theorem encodeAccepts : Obligations.EncodeAccepts := fun s w h =>
  ⟨s.quiet.commitWord w, exec_encode_of_ok h, rfl, rfl, rfl, rfl, rfl, noTransfer_of_bus rfl, rfl, rfl, rfl, rfl,
    .of_fields rfl rfl rfl rfl rfl, ⟨rfl, rfl, rfl, rfl, rfl⟩⟩

/-- Settles O16: ACK has one branch. -/
theorem ackEffect : Obligations.AckEffect := fun s =>
  ⟨{ s.quiet with diag := .ok, phase := .restart }, rfl, rfl, rfl, rfl, noTransfer_of_bus rfl, rfl, rfl, rfl, rfl, rfl,
    rfl, .of_fields rfl rfl rfl rfl rfl, ⟨rfl, rfl, rfl, rfl, rfl⟩⟩

/-- Settles O17: with the line up already, raising it changes nothing (`exec_restart`). -/
theorem restartEffect : Obligations.RestartEffect := fun s =>
  ⟨{ s.quiet with restartReq := true }, exec_restart s, rfl, fun h => ⟨rfl, rfl, rfl, rfl, rfl, rfl, h.symm⟩, rfl, rfl,
    rfl, rfl, rfl, rfl, noTransfer_of_bus rfl, noEvent_of_diag rfl, .of_fields rfl rfl rfl rfl rfl, ⟨rfl, rfl, rfl, rfl, rfl⟩⟩

/-- Settles O18: HALT makes the outputs idle and nothing else. -/
theorem haltHolds : Obligations.HaltHolds := fun s =>
  ⟨s.quiet, rfl, ⟨rfl, rfl, rfl, rfl, rfl, rfl, rfl⟩, rfl, noTransfer_of_bus rfl, noEvent_of_diag rfl,
    .of_fields rfl rfl rfl rfl rfl, ⟨rfl, rfl, rfl, rfl, rfl⟩⟩

end Sys2Proof

/-! # The family 60_exceptions.md: the entries of FieldOverflow and HardwareTimeout

Both exceptions are taken by one operation, `State.raise` (R106), and their event is one lemma about it
(`State.raise_event`); what remains is which branch of ENCODE or of a wait takes them. -/

namespace Sys2Proof

namespace Machine

/-- R62, R101: an exception shows its code on the diagnostic channel. -/
theorem State.raise_event (s : State) (e : Err) (landing : Phase) :
    (s.raise e landing).diagKind = 3 ∧ (s.raise e landing).diagData = e.code.setWidth 32 :=
  ⟨rfl, rfl⟩

/-- R83: a limit that the next not-ready answer reaches expires. -/
theorem State.pollExpires_of_reached {s : State} {l : Nat} (hlim : s.params.pollLimit = some l)
    (hl : l ≤ s.pollcnt.toNat + 1) : s.pollExpires = true := by
  refine Bool.eq_true_of_not_eq_false fun hexp => ?_
  have hlt := State.pollExpires_eq_false.1 hexp l hlim
  omega

end Machine

open Machine Safety

/-! ### The obligations -/

/-- Settles O15, by the refusing branch of ENCODE. -/
theorem overflowEntry : Obligations.OverflowEntry := by
  intro s f h
  obtain ⟨hkind, hdata⟩ := s.quiet.raise_event (.fieldOverflow f) .idle
  exact ⟨_, exec_encode_of_error h, rfl, rfl, hkind, hdata, noTransfer_of_bus rfl, rfl, rfl, rfl, rfl, rfl,
    sameController_raiseFieldOverflow s f, ⟨rfl, rfl, rfl, rfl, rfl⟩⟩

/-- Settles O25: the timeout branch of the wait; with a limit the counter counts this answer too. -/
theorem timeoutEntry : Obligations.TimeoutEntry := by
  intro k s l hb hlim hl
  refine ⟨waitStep k s, by cases k <;> rfl, ?_⟩
  rw [waitStep_timeout k hb (State.pollExpires_of_reached hlim hl)]
  obtain ⟨hkind, hdata⟩ :=
    State.raise_event { s.quiet with pollcnt := s.pollcntAfterBusy } (.hardwareTimeout k) .fault
  exact ⟨rfl, rfl, hkind, hdata, State.pollcntAfterBusy_limited hlim, rfl, rfl, rfl, rfl, noTransfer_of_bus rfl,
    sameController_waitTimeout s k, ⟨rfl, rfl, rfl, rfl, rfl⟩⟩

end Sys2Proof

/-! # The family 70_reset_and_hazards.md: the platform's reset

A reset resets the block's registers of a state that agrees with the one before on the world outside and on every byte
that no operation in flight disturbs (`platformReset_eq_resetBlock`); both statements follow from that. -/

namespace Sys2Proof

open Machine Safety

namespace Machine

/-! ### What a reset leaves alone (R126, R132) -/

/-- R42: a byte is left alone when no operation is in flight, or the one in flight affects other bytes. -/
theorem State.disturbed_eq_false {s : State} {a : Nat} : s.disturbed a = false ↔
    (s.nvBusy = true → a < (s.nvPending.affected s.params).1 ∨ (s.nvPending.affected s.params).2 ≤ a) := by
  unfold State.disturbed
  cases s.nvBusy with
  | false => simp
  | true =>
    simp only [Bool.true_and, Bool.and_eq_false_iff, decide_eq_false_iff_not, forall_const]
    omega

/-- A byte that nothing disturbs is read from the store. -/
theorem State.observeByte_of_not_disturbed {s : State} {a : Nat} (h : s.disturbed a = false) :
    s.observeByte a = Memory.read s.mem a := by
  simp [State.observeByte, h]

/-- R132: an abandoned operation loses no byte but those it disturbs. -/
theorem State.observeByte_abandon {s : State} (fate : ControllerFate) {a : Nat} (h : s.disturbed a = false) :
    (s.abandon fate).observeByte a = s.observeByte a := by
  unfold State.abandon
  split
  · exact State.observeByte_congr rfl rfl rfl rfl a
  · rw [State.observeByte_ready rfl, State.observeByte_of_not_disturbed h]
    show Memory.read (if s.nvBusy then _ else _) a = _
    split
    next hb => exact Memory.read_forget_outside _ (State.disturbed_eq_false.1 h hb)
    next => rfl

theorem sameWorld_abandon (s : State) (fate : ControllerFate) : SameWorld s (s.abandon fate) := by
  simp [SameWorld]

/-- R126, R132: whatever it cuts short, a reset is a reset of the block in a state with the same world outside and the
same undisturbed bytes. -/
theorem platformReset_eq_resetBlock (fate : ControllerFate) (s : State) :
    ∃ u, platformReset fate s = u.resetBlock ∧ SameWorld s u ∧
      ∀ a, s.disturbed a = false → u.observeByte a = s.observeByte a := by
  cases h : s.cutShort with
  | false => exact ⟨s, platformReset_whole fate h, ⟨rfl, rfl, rfl, rfl, rfl⟩, fun _ _ => rfl⟩
  | true =>
    exact ⟨s.abandon fate, platformReset_cut fate h, sameWorld_abandon s fate, fun _ => State.observeByte_abandon fate⟩

/-- R132: a reset that cuts nothing short leaves the controller and the region alone. -/
theorem sameController_platformReset {s : State} (fate : ControllerFate) (h : s.cutShort = false) :
    SameController s (platformReset fate s) := by
  rw [platformReset_whole fate h]
  exact .of_fields rfl rfl rfl rfl rfl

end Machine

/-! ### The obligations -/

/-- Settles O37: the block's registers are those of `resetBlock`, and the rest is as `platformReset_eq_resetBlock` says. -/
theorem platformReset : Obligations.PlatformReset := by
  intro s fate
  obtain ⟨u, hu, hworld, hobs⟩ := platformReset_eq_resetBlock fate s
  have hctl : s.nvBusy = false → s.phase.midSequence = false → SameController s (Machine.platformReset fate s) :=
    fun hb hp => sameController_platformReset fate (by simp [State.cutShort, hb, hp])
  rw [hu] at hctl ⊢
  exact ⟨rfl, rfl, rfl, rfl, rfl, rfl, noTransfer_of_bus rfl, noEvent_of_diag rfl, hworld, rfl, hobs, hctl⟩

/-- Settles O13: a reset arms the latch and keeps the pins, so the first poll sees a press (`State.polled_press`). -/
theorem heldAcrossReset : Obligations.HeldAcrossReset := by
  intro s fate hpressed
  obtain ⟨u, hu, ⟨hpins, _⟩, _⟩ := platformReset_eq_resetBlock fate s
  obtain ⟨hlatch, hphase⟩ := State.polled_press (s := u.resetBlock) rfl (by simp [hpins, hpressed])
  rw [hu]
  exact ⟨_, exec_poll _, hphase, hlatch⟩

end Sys2Proof
